-- ==== Sys2Proof/Word.lean ====
section
/-! DEFINITION. Word.lean: the two kinds of value the controller handles (00_scope.md R7: "All quantities are unsigned").

A byte is a bit vector of 8 bits. An index, count, capacity, address or counter is a natural number: the manual's
register widths `W`, `A` and `OVF_W` are PARAMETERS of the block (R5), every rule "may be read over the mathematical
integers; no rule depends on `W`-bit wrap-around" (R6), and no rule shifts or masks a register. That each register
stays below two to its width is the invariant `Machine.RegistersFit` of Safety.lean, not a property of the type
(assumption log 2). -/

namespace Sys2Proof

/-- One byte of payload or storage (R29). -/
abbrev Byte := BitVec 8

end Sys2Proof
end

