-- ==== Sys2Proof/Syntax.lean ====
section
/-! DEFINITION. Syntax.lean: ports, commands and responses as syntax (30_encoding.md).

One constructor of `Instr` per row of spec/opcode_table.json: the six commands of R3 and the two reserved `op` values.
A command is what R64 writes as `<port>: <MNEMONIC> <operands>`: it carries the port it arrives on, because "A command
is decoded from the word and the identity of the port it arrives on (rule R58), and from nothing else" (R53), and both
operand fields, the ignored ones too (R60), so that no bit of the word is lost. A `WRITE` carries its payload, which R61
treats "as an operand". -/

namespace Sys2Proof

/-- The two command ports (R7): `P` is the producer's, `C` the consumer's. -/
inductive Port where
  | P
  | C
  deriving DecidableEq, Repr, Inhabited

/-- "The *peer* of a port is the other one" (R7). -/
def Port.peer : Port → Port
  | .P => .C
  | .C => .P

/-- The commands (R54), one constructor per `op` value. `arg0` and `arg1` are the two operand fields of R53. -/
inductive Instr where
  /-- `INIT`, op 0 (R65): `arg0` is the new capacity, `arg1` the new base. -/
  | init (port : Port) (arg0 : Nat) (arg1 : Nat)
  /-- `CLEAR`, op 1 (R68): both fields ignored. -/
  | clear (port : Port) (arg0 : Nat) (arg1 : Nat)
  /-- `DATA_COUNT`, op 2 (R71): both fields ignored. -/
  | dataCount (port : Port) (arg0 : Nat) (arg1 : Nat)
  /-- `SPACE_COUNT`, op 3 (R72): both fields ignored. -/
  | spaceCount (port : Port) (arg0 : Nat) (arg1 : Nat)
  /-- `WRITE`, op 4 (R78): `arg0` is `nbytes`, `arg1` is ignored, `src` is the payload. -/
  | write (port : Port) (arg0 : Nat) (arg1 : Nat) (src : List Byte)
  /-- `READ`, op 5 (R85): `arg0` is `nbytes`, `arg1` is ignored. -/
  | read (port : Port) (arg0 : Nat) (arg1 : Nat)
  /-- Reserved op 6 (R59). -/
  | reserved6 (port : Port) (arg0 : Nat) (arg1 : Nat)
  /-- Reserved op 7 (R59). -/
  | reserved7 (port : Port) (arg0 : Nat) (arg1 : Nat)
  deriving DecidableEq, Repr

/-- The port a command arrives on. -/
def Instr.port : Instr → Port
  | .init p _ _ => p
  | .clear p _ _ => p
  | .dataCount p _ _ => p
  | .spaceCount p _ _ => p
  | .write p _ _ _ => p
  | .read p _ _ => p
  | .reserved6 p _ _ => p
  | .reserved7 p _ _ => p

/-- The field `arg0` of the command word. -/
def Instr.arg0 : Instr → Nat
  | .init _ a _ => a
  | .clear _ a _ => a
  | .dataCount _ a _ => a
  | .spaceCount _ a _ => a
  | .write _ a _ _ => a
  | .read _ a _ => a
  | .reserved6 _ a _ => a
  | .reserved7 _ a _ => a

/-- The field `arg1` of the command word. -/
def Instr.arg1 : Instr → Nat
  | .init _ _ b => b
  | .clear _ _ b => b
  | .dataCount _ _ b => b
  | .spaceCount _ _ b => b
  | .write _ _ b _ => b
  | .read _ _ b => b
  | .reserved6 _ _ b => b
  | .reserved7 _ _ b => b

/-- The bytes carried beside the command word (R61): a `WRITE`'s payload; no other command carries any. -/
def Instr.payload : Instr → List Byte
  | .write _ _ _ src => src
  | .init _ _ _ => []
  | .clear _ _ _ => []
  | .dataCount _ _ _ => []
  | .spaceCount _ _ _ => []
  | .read _ _ _ => []
  | .reserved6 _ _ _ => []
  | .reserved7 _ _ _ => []

/-- How many bytes the command must carry beside its word (R61): "exactly `nbytes`" for a `WRITE`, none otherwise. -/
def Instr.payloadBytes : Instr → Nat
  | .write _ n _ _ => n
  | .init _ _ _ => 0
  | .clear _ _ _ => 0
  | .dataCount _ _ _ => 0
  | .spaceCount _ _ _ => 0
  | .read _ _ _ => 0
  | .reserved6 _ _ _ => 0
  | .reserved7 _ _ _ => 0

/-- What an agent presents on a port: a command word (R53), as an integer whose bit 0 is its least significant bit, and
the payload beside it (R61). -/
structure Command where
  word : Nat
  payload : List Byte := []
  deriving DecidableEq, Repr

/-- Why something presented on a port is no command at all. -/
inductive DecodeError where
  /-- The integer has more than `3 + W + A` bits, so it is no `CMD` word (R53). -/
  | wordTooWide
  /-- The payload does not have the length the command word calls for (R61, D25). -/
  | payloadLength
  deriving DecidableEq, Repr

/-- The status codes by name (R57). -/
inductive Status where
  | ok
  | notActive
  | invalidConfiguration
  | illegalCommand
  deriving DecidableEq, Repr

/-- A response: the two fields of the `RSP` word (R56) and the bytes returned beside it (R61). -/
structure Response where
  status : Status
  value : Nat
  bytes : List Byte := []
  deriving DecidableEq, Repr

end Sys2Proof
end

