-- ==== Sys2Proof/Config.lean ====
section
/-! DEFINITION. Config.lean: the implementation parameters of 00_scope.md R4 and R5, and the free values.

"A model takes all of them as configuration" (R5): the parameters are one record, `Config`, that State carries in its
field `cfg` and no step changes. Statements quantify over it under `Config.Valid`; only the reset state names values. -/

namespace Sys2Proof

/-- `LANES`, bytes per word of the storage port: "one of 1, 2, 4, 8" (R5). -/
inductive Lanes where
  | x1
  | x2
  | x4
  | x8
  deriving DecidableEq, Repr

/-- `LANES` as a number. -/
def Lanes.bytes : Lanes → Nat
  | .x1 => 1
  | .x2 => 2
  | .x4 => 4
  | .x8 => 8

/-- The parameters of R4 and R5, under the manual's names. -/
structure Config where
  /-- `W`: width of the indices, of `capacity_slots`, of `nbytes` and of every count. -/
  W : Nat
  /-- `CB_MAX_SIZE`: the largest legal `capacity_slots`. -/
  cbMaxSize : Nat
  /-- `OVF_W`: width of `overflow_count`. -/
  ovfW : Nat
  /-- `A`: width of a storage address and of `storage_base`. -/
  A : Nat
  /-- `STORAGE_BYTES`: number of bytes of the storage space. -/
  storageBytes : Nat
  /-- `LANES`: bytes per word of the storage port. -/
  lanes : Lanes
  deriving DecidableEq, Repr

/-- The constraints column of R5. -/
abbrev Config.Valid (c : Config) : Prop :=
  2 ≤ c.W ∧ (2 ≤ c.cbMaxSize ∧ c.cbMaxSize ≤ 2 ^ (c.W - 1)) ∧ 1 ≤ c.ovfW ∧ 1 ≤ c.A ∧
  (2 ≤ c.storageBytes ∧ c.storageBytes ≤ 2 ^ c.A) ∧ c.storageBytes % c.lanes.bytes = 0

/-- The defaults of R5. `STORAGE_BYTES` is OPEN there ("no default"): 4096, the value 95_test_vectors.md assumes, is a
DESIGN CHOICE that only the reset state carries (assumption log 3). -/
def Config.default : Config where
  W := 32
  cbMaxSize := 8388608
  ovfW := 32
  A := 32
  storageBytes := 4096
  lanes := .x1

/-- FREE VALUE (10_state.md R26, 70_reset_and_hazards.md R108, U4: "any value. Never zero"): the byte that storage
address `a` has held since power-up when no command has written it. One value per address, because the storage is plain
memory and reads are idempotent (R29). Assumption log 4. -/
opaque Config.powerUpByte : Nat → Byte

/-- FREE VALUE (20_memory.md R43, U15: "Which enabled step comes next is not determined"): the port that moves at the
`n`-th choice the schedule leaves open. Assumption log 6. -/
opaque Config.freeTurn : Nat → Port

end Sys2Proof
end

