-- ==== Sys2Proof/WellFormed.lean ====
section
/-! DEFINITION. WellFormed.lean: when a command term stands for something a port can carry.

The fields of R53 have `W` and `A` bits, and a payload "of any other length cannot be expressed" (R61). -/

namespace Sys2Proof

/-- `arg0` is a `W`-bit operand (R53). -/
abbrev Instr.Arg0Fits (c : Config) (i : Instr) : Prop := i.arg0 < 2 ^ c.W

/-- `arg1` is an `A`-bit operand (R53). -/
abbrev Instr.Arg1Fits (c : Config) (i : Instr) : Prop := i.arg1 < 2 ^ c.A

/-- The payload has exactly `nbytes` bytes (R61, D25). -/
abbrev Instr.PayloadFits (i : Instr) : Prop := i.payload.length = i.payloadBytes

/-- A command that can be presented on a port of a block with parameters `c`. -/
abbrev Instr.WellFormed (c : Config) (i : Instr) : Prop :=
  i.Arg0Fits c ∧ i.Arg1Fits c ∧ i.PayloadFits

end Sys2Proof
end

