-- ==== Sys2Proof/Decode.lean ====
section
/-! DEFINITION. Decode.lean: the `CMD` and `RSP` words (30_encoding.md R53 to R61), decoder first, encoder after it.

`cmd = op + arg0 * 2^3 + arg1 * 2^(W+3)`, `rsp = status + value * 2^2`. The decoder is total (R60): every word of
`3 + W + A` bits with a payload of the right length is one of the eight rows of the table; everything else is rejected
by name. -/

namespace Sys2Proof

/-- `cmd[2:0]` (R53), a number below 8. -/
def opField (word : Nat) : Fin 8 := Fin.ofNat 8 word

/-- `cmd[W+2 : 3]` (R53). -/
def arg0Field (c : Config) (word : Nat) : Nat := word / 2 ^ 3 % 2 ^ c.W

/-- `cmd[W+A+2 : W+3]` (R53). -/
def arg1Field (c : Config) (word : Nat) : Nat := word / 2 ^ (c.W + 3) % 2 ^ c.A

/-- The length of a command word, `3 + W + A` bits (R53, R63). -/
def commandBits (c : Config) : Nat := 3 + c.W + c.A

/-- The opcode map (R54). -/
def instrOf (op : Fin 8) (port : Port) (arg0 arg1 : Nat) (src : List Byte) : Instr :=
  match op with
  | 0 => .init port arg0 arg1
  | 1 => .clear port arg0 arg1
  | 2 => .dataCount port arg0 arg1
  | 3 => .spaceCount port arg0 arg1
  | 4 => .write port arg0 arg1 src
  | 5 => .read port arg0 arg1
  | 6 => .reserved6 port arg0 arg1
  | 7 => .reserved7 port arg0 arg1

/-- The command that a presented word and payload stand for on a port. -/
def decode (c : Config) (port : Port) (cmd : Command) : Except DecodeError Instr :=
  if cmd.word < 2 ^ commandBits c then
    let i := instrOf (opField cmd.word) port (arg0Field c cmd.word) (arg1Field c cmd.word) cmd.payload
    if cmd.payload.length = i.payloadBytes then .ok i else .error .payloadLength
  else .error .wordTooWide

/-- Which port accepts a command (R58). -/
def Instr.legal : Instr → Bool
  | .init _ _ _ => true
  | .clear _ _ _ => true
  | .dataCount _ _ _ => true
  | .spaceCount _ _ _ => true
  | .write p _ _ _ => p = .P
  | .read p _ _ => p = .C
  | .reserved6 _ _ _ => false
  | .reserved7 _ _ _ => false

/-- The operation code (R54). -/
def Instr.opcode : Instr → Nat
  | .init _ _ _ => 0
  | .clear _ _ _ => 1
  | .dataCount _ _ _ => 2
  | .spaceCount _ _ _ => 3
  | .write _ _ _ _ => 4
  | .read _ _ _ => 5
  | .reserved6 _ _ _ => 6
  | .reserved7 _ _ _ => 7

/-- The mnemonic of R54; the reserved rows as spec/opcode_table.json spells them. -/
def Instr.mnemonic : Instr → String
  | .init _ _ _ => "INIT"
  | .clear _ _ _ => "CLEAR"
  | .dataCount _ _ _ => "DATA_COUNT"
  | .spaceCount _ _ _ => "SPACE_COUNT"
  | .write _ _ _ _ => "WRITE"
  | .read _ _ _ => "READ"
  | .reserved6 _ _ _ => "RESERVED6"
  | .reserved7 _ _ _ => "RESERVED7"

/-- "As an integer, `cmd = op + arg0 * 2^3 + arg1 * 2^(W+3)`" (R53), with the payload beside it (R61). -/
def encode (c : Config) (i : Instr) : Command where
  word := i.opcode + i.arg0 * 2 ^ 3 + i.arg1 * 2 ^ (c.W + 3)
  payload := i.payload

/-- The code numbers of R57. -/
def Status.code : Status → Nat
  | .ok => 0
  | .notActive => 1
  | .invalidConfiguration => 2
  | .illegalCommand => 3

/-- The status whose code is `n` (R57). -/
def Status.ofCode (n : Fin 4) : Status :=
  match n with
  | 0 => .ok
  | 1 => .notActive
  | 2 => .invalidConfiguration
  | 3 => .illegalCommand

/-- "As an integer, `rsp = status + value * 2^2`" (R56). -/
def Response.word (r : Response) : Nat := r.status.code + r.value * 2 ^ 2

/-- The response a word `rsp` and the bytes beside it stand for: `rsp[1:0]` and `rsp[W+1 : 2]` (R56). -/
def decodeResponse (c : Config) (rsp : Nat) (bytes : List Byte) : Response where
  status := Status.ofCode (Fin.ofNat 4 rsp)
  value := rsp / 2 ^ 2 % 2 ^ c.W
  bytes := bytes

/-- The port on which the table's word is presented when only the word is given: `READ` on `C`, every other on `P`, so
that each command stands on a port that may issue it (R58). -/
def tablePort (word : Nat) : Port := if opField word = 5 then .C else .P

/-- The table's word as a presented command; a `WRITE` of `nbytes` bytes is given a payload of that many zero bytes,
since the table writes no payload (assumption log 8). -/
def tableCommand (c : Config) (nbits word : Nat) : Command where
  word := word % 2 ^ nbits
  payload := if opField (word % 2 ^ nbits) = 4 then
      List.replicate (arg0Field c (word % 2 ^ nbits)) (0 : Byte)
    else []

/-- The instruction the decoder reads from a word numbered as spec/opcode_table.json numbers it (default parameters:
67 bits). -/
def decodeTableWord (nbits w : Nat) : Option Instr :=
  match decode Config.default (tablePort (w % 2 ^ nbits)) (tableCommand Config.default nbits w) with
  | .ok i => some i
  | .error _ => none

end Sys2Proof
end

