-- ==== Sys2Proof/Machine/State.lean ====
section
/-! DEFINITION. State.lean: everything the spec gives the machine, as plain data (10_state.md, 20_memory.md R29, R52).

The controller is the descriptor (R10), the two port sequencers (R23, R24) and the storage bytes it is bound to (R29).
Beside it stand the things a run consists of: the parameters (R5), the commands the two agents will issue in order
(R52), the order of events from outside (R43), and what the controller has answered and shown (R52, R21). -/

namespace Sys2Proof.Machine

/-- The phases of R23 and R24. -/
inductive Phase where
  | idle
  | copy
  | publish
  deriving DecidableEq, Repr

/-- The sequencer fields of a `WRITE` in flight (R23). They "have meaning only while `p_phase != IDLE`", so they are
fields of the two busy phases and an idle port has none (U5; assumption log 5). -/
structure WriteFlight where
  /-- `p_wr`: `write_index` as sampled by W1. -/
  wr : Nat
  /-- `p_k`: number of bytes this `WRITE` stores. -/
  k : Nat
  /-- `p_i`: number of bytes already stored. -/
  i : Nat
  /-- `p_drop`: number of bytes this `WRITE` drops. -/
  drop : Nat
  /-- `p_src`: the payload. -/
  src : List Byte
  deriving DecidableEq, Repr

/-- Port `P`'s sequencer (R23): `p_phase` with the fields that go with it. -/
inductive WriteSeq where
  | idle
  | copy (f : WriteFlight)
  | publish (f : WriteFlight)
  deriving DecidableEq, Repr

/-- `p_phase` (R23). -/
def WriteSeq.phase : WriteSeq → Phase
  | .idle => .idle
  | .copy _ => .copy
  | .publish _ => .publish

/-- The sequencer fields of a `READ` in flight (R24). -/
structure ReadFlight where
  /-- `c_rd`: `read_index` as sampled by R1. -/
  rd : Nat
  /-- `c_k`: number of bytes this `READ` returns. -/
  k : Nat
  /-- `c_i`: number of bytes already copied out. -/
  i : Nat
  /-- `c_dst`: the bytes copied out so far. -/
  dst : List Byte
  deriving DecidableEq, Repr

/-- Port `C`'s sequencer (R24): `c_phase` with the fields that go with it. -/
inductive ReadSeq where
  | idle
  | copy (f : ReadFlight)
  | publish (f : ReadFlight)
  deriving DecidableEq, Repr

/-- `c_phase` (R24). -/
def ReadSeq.phase : ReadSeq → Phase
  | .idle => .idle
  | .copy _ => .copy
  | .publish _ => .publish

/-- The storage space (R29): the bytes written so far, as (address, byte) pairs with strictly rising addresses. An
unlisted address holds no known byte (R26, R108), so no entry can equal what an unlisted address reads as. -/
abbrev Memory := List Host.Cell

/-- The canonical form of the storage. -/
abbrev Memory.wf (m : Memory) : Prop := m.Pairwise fun x y => x.1 < y.1

/-- The status outputs, all seven read at one instant (R21). -/
structure StatusOutputs where
  active : Bool
  empty : Bool
  full : Bool
  writeIndex : Nat
  readIndex : Nat
  overflowCount : Nat
  capacitySlots : Nat
  deriving DecidableEq, Repr

/-- One observation (R21): the agent that made it, named by the port it drives, and what it saw. -/
structure Observation where
  agent : Port
  seen : StatusOutputs
  deriving DecidableEq, Repr

/-- The kinds of atomic step of R43. A port's turn is the next step of its command in flight, or the first step of its
next command. -/
inductive Event where
  | turn (p : Port)
  | observe (agent : Port)
  | reset
  deriving DecidableEq, Repr

/-- The state. -/
structure State where
  /-- The parameters of R4 and R5. No step changes them (assumption log 3). -/
  cfg : Config
  /-- `active` (R17). -/
  active : Bool
  /-- `write_index` (R11). -/
  writeIndex : Nat
  /-- `read_index` (R13). -/
  readIndex : Nat
  /-- `overflow_count` (R16). -/
  overflowCount : Nat
  /-- `capacity_slots` (R14). -/
  capacitySlots : Nat
  /-- `storage_base` (R15). -/
  storageBase : Nat
  /-- Port `P`'s sequencer (R23). -/
  portP : WriteSeq
  /-- Port `C`'s sequencer (R24). -/
  portC : ReadSeq
  /-- The storage bytes (R29). -/
  storage : Memory
  /-- The commands port `P`'s agent has still to issue, first one first (R52). -/
  pCommands : List Command
  /-- The commands port `C`'s agent has still to issue, first one first (R52). -/
  cCommands : List Command
  /-- The events fixed from outside, next one first (R43, U15; assumption log 6). -/
  schedule : List Event
  /-- THE MODEL'S OWN: how many choices of a port the schedule has left open so far (assumption log 6). -/
  choices : Nat
  /-- The responses issued on port `P`, oldest first (R52, R56). -/
  pResponses : List Response
  /-- The responses issued on port `C`, oldest first (R52, R56). -/
  cResponses : List Response
  /-- The observations made, oldest first (R21). -/
  observations : List Observation
  deriving DecidableEq, Repr

/-- Why the machine stops. The block itself never stops (R98); each of these marks a run that has left the contract. -/
inductive Fault where
  /-- Raised by `INIT` and `CLEAR` when the peer port has a transfer in flight: "a model treats the step as a fault of
  the run" (R69, U2). Safe: nothing is claimed of what follows. -/
  | peerInFlight
  /-- Raised by a command's meaning on a port that is not idle. `step` never runs one there: it holds the command (R62).
  What an implementation does with it is unspecified (R114, U8). Safe. -/
  | portBusy
  /-- Raised by a storage access at an address that is not below `STORAGE_BYTES` (R29: the space has no such byte). No
  state that keeps `Inv` reaches it (R31). Safe. -/
  | outsideStorage
  /-- Raised by step W2 when the payload has no byte `p_i`; R61 gives it `p_k + p_drop`, and no state that keeps `Inv`
  reaches it. Safe. -/
  | payloadExhausted
  deriving DecidableEq, Repr

/-- What the model gives no meaning to. -/
inductive Refusal where
  /-- An instruction whose arm is not written yet. Safe. -/
  | notModelled (mnemonic : String)
  /-- What an agent presents is no command: its word or its payload has another length than R53 and R61 say, which
  "cannot be expressed" (D25: "check the length and refuse"). Safe. -/
  | notACommand (why : DecodeError)
  deriving DecidableEq, Repr

/-- The machine right after reset (R26, R107): every register 0, both ports idle, the storage unspecified, so unlisted.
The parameters are the defaults of R5 (assumption log 3); no command, event, response or observation yet (log 13). -/
def State.reset : State where
  cfg := Config.default
  active := false
  writeIndex := 0
  readIndex := 0
  overflowCount := 0
  capacitySlots := 0
  storageBase := 0
  portP := .idle
  portC := .idle
  storage := []
  pCommands := []
  cCommands := []
  schedule := []
  choices := 0
  pResponses := []
  cResponses := []
  observations := []

end Sys2Proof.Machine
end

