-- ==== Sys2Proof/Machine/Ops.lean ====
section
/-! DEFINITION. Ops.lean: the operations every meaning is written over: the index arithmetic (20_memory.md R35 to R37),
the storage and the byte-enable mux (R29 to R41), responding (30_encoding.md R56), reset (70_reset_and_hazards.md R107).

The block takes no exceptions: "no state is saved on an error; there is no handler address" (R98), and there is nothing
to return from (R101). What takes an exception's place is an error response, which is `State.respond` like any other. -/

namespace Sys2Proof.Machine

/-! Index arithmetic. -/

/-- Difference modulo capacity (R35). -/
def diff (w r cap : Nat) : Nat := if r ≤ w then w - r else w + cap - r

/-- Advance modulo capacity (R36). -/
def adv (idx k cap : Nat) : Nat := if cap ≤ idx + k then idx + k - cap else idx + k

/-- Wrap-around split (R37): the lengths of the segment up to the array's end and of the one from its start. -/
def split (off len cap : Nat) : Nat × Nat := (min len (cap - off), len - min len (cap - off))

/-- `sat_N(a + b)` (R7): the sum, or the largest `n`-bit number if that is smaller. -/
def satAdd (n : Nat) (a b : Nat) : Nat := min (a + b) (2 ^ n - 1)

/-- The data count of the descriptor (R71), whatever `active` is. -/
def State.dataCount (s : State) : Nat := diff s.writeIndex s.readIndex s.capacitySlots

/-- The space count of the descriptor (R72), whatever `active` is. -/
def State.spaceCount (s : State) : Nat := s.capacitySlots - 1 - s.dataCount

/-- Configuration validity (R66), "computed over the integers". -/
def validConfig (c : Config) (base cap : Nat) : Bool :=
  decide (2 ≤ cap) && decide (cap ≤ c.cbMaxSize) && decide (base + cap ≤ c.storageBytes)

/-! The storage. -/

/-- The listed byte at an address, none where nothing has been written. -/
def Memory.find (a : Nat) : Memory → Option Byte
  | [] => none
  | (b, v) :: rest => if b = a then some v else Memory.find a rest

/-- `S[a]` (R7): the last byte written there (R29), or the unspecified byte it has held since power-up (R108). -/
def Memory.byteAt (m : Memory) (a : Nat) : Byte := (Memory.find a m).getD (Config.powerUpByte a)

/-- `S[a] <- v`, in canonical form. -/
def Memory.write (a : Nat) (v : Byte) : Memory → Memory
  | [] => [(a, v)]
  | (b, w) :: rest =>
    if a < b then (a, v) :: (b, w) :: rest
    else if a = b then (a, v) :: rest
    else (b, w) :: Memory.write a v rest

/-- One word write as it stands on the storage port (R39). Bit `j` of `be` enables lane `j`; element `j` of `wdata` is
`wdata[8*j+7 : 8*j]`, lane 0 first. -/
structure WordWrite where
  wa : Nat
  be : Nat
  wdata : List Byte
  deriving DecidableEq, Repr

/-- `MemWrite(a, 1, v)` as it is presented on the storage port (R39). -/
def muxWrite (lanes : Lanes) (a : Nat) (v : Byte) : WordWrite where
  wa := a / lanes.bytes
  be := 1 <<< (a % lanes.bytes)
  wdata := List.replicate lanes.bytes v

/-- The effect of a word write (R39): each enabled lane is stored, the others are unchanged. -/
def wordWrite (lanes : Lanes) (m : Memory) (w : WordWrite) : Memory :=
  w.wdata.zipIdx.foldl
    (fun m lane => if w.be.testBit lane.2 then m.write (w.wa * lanes.bytes + lane.2) lane.1 else m) m

/-- The word read from the storage port (R40): the bytes of its lanes, lane 0 first. -/
def wordRead (lanes : Lanes) (m : Memory) (wa : Nat) : List Byte :=
  (List.range lanes.bytes).map fun j => m.byteAt (wa * lanes.bytes + j)

/-- `MemRead(a, 1)` through the mux (R40): the lane `a mod LANES` of word `a div LANES`. -/
def muxRead (lanes : Lanes) (m : Memory) (a : Nat) : Byte :=
  (wordRead lanes m (a / lanes.bytes)).getD (a % lanes.bytes) (m.byteAt a)

/-- A word on the storage port as a number, lane 0 in its least significant byte (R39). -/
def wordValue : List Byte → Nat
  | [] => 0
  | v :: rest => v.toNat + 2 ^ 8 * wordValue rest

/-- `MemRead(a, 1)` (R7, R31): one byte, one atomic step. -/
def State.memRead (s : State) (a : Nat) : Except Fault Byte :=
  if a < s.cfg.storageBytes then .ok (muxRead s.cfg.lanes s.storage a) else .error .outsideStorage

/-- `MemWrite(a, 1, v)` (R7, R31): one byte, one atomic step. -/
def State.memWrite (s : State) (a : Nat) (v : Byte) : Except Fault State :=
  if a < s.cfg.storageBytes then
    .ok { s with storage := wordWrite s.cfg.lanes s.storage (muxWrite s.cfg.lanes a v) }
  else .error .outsideStorage

/-! The ports. -/

/-- The port's sequencer is `IDLE` (R23, R24): no command in flight on it. -/
def State.portIdle (s : State) : Port → Bool
  | .P => s.portP.phase = .idle
  | .C => s.portC.phase = .idle

/-- "The controller is *quiescent* when `p_phase = IDLE` and `c_phase = IDLE`" (R23). -/
def State.quiescent (s : State) : Bool := s.portIdle .P && s.portIdle .C

/-- The commands the port's agent has still to issue. -/
def State.commands (s : State) : Port → List Command
  | .P => s.pCommands
  | .C => s.cCommands

/-- The state in which the port's agent has `cs` still to issue. -/
def State.withCommands (s : State) (p : Port) (cs : List Command) : State :=
  match p with
  | .P => { s with pCommands := cs }
  | .C => { s with cCommands := cs }

/-- The responses issued on a port, oldest first. -/
def State.responses (s : State) : Port → List Response
  | .P => s.pResponses
  | .C => s.cResponses

/-- `respond(status, value, bytes)` (R7, R56): the response, on the port that issued the command. -/
def State.respond (s : State) (p : Port) (status : Status) (value : Nat) (bytes : List Byte) : State :=
  match p with
  | .P => { s with pResponses := s.pResponses ++ [⟨status, value, bytes⟩] }
  | .C => { s with cResponses := s.cResponses ++ [⟨status, value, bytes⟩] }

/-! What several meanings share. -/

/-- A port accepts a command only when its sequencer is `IDLE` (R62). -/
def State.accept (s : State) (p : Port) (body : Host.Outcome State Fault Refusal) : Host.Outcome State Fault Refusal :=
  if s.portIdle p then body else .fault .portBusy

/-- The quiescence precondition of `INIT` and `CLEAR` (R69): with the peer in flight the run is at fault. -/
def State.whenPeerIdle (s : State) (p : Port) (body : Host.Outcome State Fault Refusal) :
    Host.Outcome State Fault Refusal :=
  if s.portIdle p.peer then body else .fault .peerInFlight

/-- NotActive (R94): with `active = 0` the command changes nothing and answers `NOT_ACTIVE 0`, with no bytes. -/
def State.whenActive (s : State) (p : Port) (body : Host.Outcome State Fault Refusal) :
    Host.Outcome State Fault Refusal :=
  if s.active then body else .next (s.respond p .notActive 0 [])

/-- IllegalCommand (R59): "`respond(ILLEGAL_COMMAND, 0)`; no register, no sequencer field and no storage byte changes". -/
def State.illegal (s : State) (p : Port) : Host.Outcome State Fault Refusal :=
  .next (s.respond p .illegalCommand 0 [])

/-- The register writes of a successful `INIT` (R65). -/
def State.bindRegion (s : State) (base cap : Nat) : State :=
  { s with
    storageBase := base
    capacitySlots := cap
    writeIndex := 0
    readIndex := 0
    overflowCount := 0
    active := true }

/-- The register writes of `CLEAR` (R68). -/
def State.zeroIndices (s : State) : State := { s with writeIndex := 0, readIndex := 0, overflowCount := 0 }

/-! The host's reset. -/

/-- Reset (R107): every register 0, both ports `IDLE`, commands in flight abandoned without a response (R109), the
storage neither read nor written (R108). What the agents have still to issue stays theirs (assumption log 12). -/
def State.hostReset (s : State) : State :=
  { s with
    active := false
    writeIndex := 0
    readIndex := 0
    overflowCount := 0
    capacitySlots := 0
    storageBase := 0
    portP := .idle
    portC := .idle }

end Sys2Proof.Machine
end

