-- ==== Sys2Proof/Machine/ConfigOps.lean ====
section
/-! DEFINITION. ConfigOps.lean: `INIT` and `CLEAR` (40_config_ops.md). Each is one atomic step, legal on either port. -/

namespace Sys2Proof.Machine

/-- `INIT` (R65, R67), with the precondition of R69 and the order of checks of R99. -/
def execInit (port : Port) (arg0 arg1 : Nat) (s : State) : Host.Outcome State Fault Refusal :=
  s.accept port <| s.whenPeerIdle port <|
    if validConfig s.cfg arg1 arg0 then .next ((s.bindRegion arg1 arg0).respond port .ok 0 [])
    else .next (s.respond port .invalidConfiguration 0 [])

/-- `CLEAR` (R68), with the precondition of R69; its fields are ignored (R60). -/
def execClear (port : Port) (_arg0 _arg1 : Nat) (s : State) : Host.Outcome State Fault Refusal :=
  s.accept port <| s.whenPeerIdle port <| s.whenActive port <|
    .next (s.zeroIndices.respond port .ok 0 [])

end Sys2Proof.Machine
end

