-- ==== Sys2Proof/Machine/QueryOps.lean ====
section
/-! DEFINITION. QueryOps.lean: `DATA_COUNT` and `SPACE_COUNT` (41_query_ops.md). Each is one atomic step that reads
`active`, both indices and the capacity at one instant (R47), legal on either port; their fields are ignored (R60). -/

namespace Sys2Proof.Machine

/-- `DATA_COUNT` (R71). -/
def execDataCount (port : Port) (_arg0 _arg1 : Nat) (s : State) : Host.Outcome State Fault Refusal :=
  s.accept port <| s.whenActive port <| .next (s.respond port .ok s.dataCount [])

/-- `SPACE_COUNT` (R72). -/
def execSpaceCount (port : Port) (_arg0 _arg1 : Nat) (s : State) : Host.Outcome State Fault Refusal :=
  s.accept port <| s.whenActive port <| .next (s.respond port .ok s.spaceCount [])

end Sys2Proof.Machine
end

