-- ==== Sys2Proof/Machine/ReservedOps.lean ====
section
/-! DEFINITION. ReservedOps.lean: the reserved `op` values 6 and 7 (30_encoding.md R59). "An illegal command is one
atomic step: `respond(ILLEGAL_COMMAND, 0)`", on either port and whatever `active` is. -/

namespace Sys2Proof.Machine

/-- Reserved op 6 (R59). -/
def execReserved6 (port : Port) (_arg0 _arg1 : Nat) (s : State) : Host.Outcome State Fault Refusal :=
  s.accept port <| s.illegal port

/-- Reserved op 7 (R59). -/
def execReserved7 (port : Port) (_arg0 _arg1 : Nat) (s : State) : Host.Outcome State Fault Refusal :=
  s.accept port <| s.illegal port

end Sys2Proof.Machine
end

