-- ==== Sys2Proof/Machine/Operands.lean ====
section
/-! DEFINITION. Operands.lean: what the transfer commands take as operands: the one addressing mode of the block (base
plus slot modulo capacity, 20_memory.md R30, 42_transfer_ops.md R80, R87), the payload byte, and the amounts sampled at
the first step (R79, R86).

The operands of R55 need no assembly: `cap = arg0`, `base = arg1` and `nbytes = arg0` "as unsigned integers with no
scaling, shifting, sign extension or offset", so the meanings name the fields themselves. -/

namespace Sys2Proof.Machine

/-- `slot(i)` (R30): the storage address of slot `i`. -/
def State.slot (s : State) (i : Nat) : Nat := s.storageBase + i

/-- The address step W2 stores to (R80). -/
def State.writeAddress (s : State) (f : WriteFlight) : Nat := s.slot (adv f.wr f.i s.capacitySlots)

/-- The address step R2 reads from (R87). -/
def State.readAddress (s : State) (f : ReadFlight) : Nat := s.slot (adv f.rd f.i s.capacitySlots)

/-- `p_src[p_i]` (R80). -/
def WriteFlight.byte (f : WriteFlight) : Except Fault Byte :=
  match f.src[f.i]? with
  | some v => .ok v
  | none => .error .payloadExhausted

/-- What step W1 samples (R79). -/
def State.sampleWrite (s : State) (nbytes : Nat) (src : List Byte) : WriteFlight where
  wr := s.writeIndex
  k := min nbytes s.spaceCount
  i := 0
  drop := nbytes - min nbytes s.spaceCount
  src := src

/-- What step R1 samples (R86). -/
def State.sampleRead (s : State) (nbytes : Nat) : ReadFlight where
  rd := s.readIndex
  k := min nbytes s.dataCount
  i := 0
  dst := []

end Sys2Proof.Machine
end

