-- ==== Sys2Proof/Machine/TransferOps.lean ====
section
/-! DEFINITION. TransferOps.lean: `WRITE` and `READ` (42_transfer_ops.md). The meaning of the command is its first
atomic step, W1 or R1, which accepts it; the steps W2, W3, R2, R3 are what the port's later turns do (R44). -/

namespace Sys2Proof.Machine

/-- Step W1 of a legal `WRITE` (R79). A `WRITE` that finds no space goes on to W3 so that its bytes are counted. -/
def State.beginWrite (s : State) (nbytes : Nat) (src : List Byte) : State :=
  let f := s.sampleWrite nbytes src
  { s with portP := if 0 < f.k then .copy f else .publish f }

/-- `WRITE` (R78, R79): illegal on port `C` (R58), else step W1. The check of R59 comes first, then `active`, then
`nbytes = 0` (R99). -/
def execWrite (port : Port) (arg0 _arg1 : Nat) (src : List Byte) (s : State) : Host.Outcome State Fault Refusal :=
  s.accept port <|
    match port with
    | .C => s.illegal .C
    | .P => s.whenActive .P <|
        if arg0 = 0 then .next (s.respond .P .ok 0 []) else .next (s.beginWrite arg0 src)

/-- Step W2 (R80): store one byte. -/
def writeCopy (f : WriteFlight) (s : State) : Host.Outcome State Fault Refusal :=
  match f.byte with
  | .error e => .fault e
  | .ok v =>
    match s.memWrite (s.writeAddress f) v with
    | .error e => .fault e
    | .ok t =>
      let g := { f with i := f.i + 1 }
      .next { t with portP := if f.i + 1 = f.k then .publish g else .copy g }

/-- Step W3 (R81): publish `write_index`, count the dropped bytes and respond, at one instant. -/
def writePublish (f : WriteFlight) (s : State) : Host.Outcome State Fault Refusal :=
  .next <| State.respond
    { s with
      writeIndex := adv f.wr f.k s.capacitySlots
      overflowCount := satAdd s.cfg.ovfW s.overflowCount f.drop
      portP := .idle } .P .ok f.k []

/-- Step R1 of a legal `READ` that has data to return (R86). -/
def State.beginRead (s : State) (nbytes : Nat) : State := { s with portC := .copy (s.sampleRead nbytes) }

/-- `READ` (R85, R86): illegal on port `P` (R58), else step R1. -/
def execRead (port : Port) (arg0 _arg1 : Nat) (s : State) : Host.Outcome State Fault Refusal :=
  s.accept port <|
    match port with
    | .P => s.illegal .P
    | .C => s.whenActive .C <|
        if arg0 = 0 then .next (s.respond .C .ok 0 [])
        else if s.dataCount = 0 then .next (s.respond .C .ok 0 [])
        else .next (s.beginRead arg0)

/-- Step R2 (R87): copy one byte out. -/
def readCopy (f : ReadFlight) (s : State) : Host.Outcome State Fault Refusal :=
  match s.memRead (s.readAddress f) with
  | .error e => .fault e
  | .ok v =>
    let g := { f with i := f.i + 1, dst := f.dst ++ [v] }
    .next { s with portC := if f.i + 1 = f.k then .publish g else .copy g }

/-- Step R3 (R88): publish `read_index` and respond with the bytes. -/
def readPublish (f : ReadFlight) (s : State) : Host.Outcome State Fault Refusal :=
  .next <| State.respond { s with readIndex := adv f.rd f.k s.capacitySlots, portC := .idle } .C .ok f.k f.dst

end Sys2Proof.Machine
end

