-- ==== Sys2Proof/Machine/Dispatch.lean ====
section
/-! DEFINITION. Dispatch.lean: which meaning each constructor of `Instr` has (30_encoding.md R54). -/

namespace Sys2Proof.Machine

def exec (i : Instr) (s : State) : Host.Outcome State Fault Refusal :=
  match i with
  | .init port arg0 arg1 => Sys2Proof.Machine.execInit port arg0 arg1 s
  | .clear port arg0 arg1 => Sys2Proof.Machine.execClear port arg0 arg1 s
  | .dataCount port arg0 arg1 => Sys2Proof.Machine.execDataCount port arg0 arg1 s
  | .spaceCount port arg0 arg1 => Sys2Proof.Machine.execSpaceCount port arg0 arg1 s
  | .write port arg0 arg1 src => Sys2Proof.Machine.execWrite port arg0 arg1 src s
  | .read port arg0 arg1 => Sys2Proof.Machine.execRead port arg0 arg1 s
  | .reserved6 port arg0 arg1 => Sys2Proof.Machine.execReserved6 port arg0 arg1 s
  | .reserved7 port arg0 arg1 => Sys2Proof.Machine.execReserved7 port arg0 arg1 s

end Sys2Proof.Machine
end

