-- ==== Sys2Proof/Machine/Flags.lean ====
section
/-! DEFINITION. Flags.lean: the derived flags and the status outputs (10_state.md R19 to R21). -/

namespace Sys2Proof.Machine

/-- `EMPTY` (R19). -/
def State.empty (s : State) : Bool := !s.active || decide (s.writeIndex = s.readIndex)

/-- `FULL` (R20). -/
def State.full (s : State) : Bool := !s.active || decide (adv s.writeIndex 1 s.capacitySlots = s.readIndex)

/-- The status outputs (R21). -/
def State.statusOutputs (s : State) : StatusOutputs where
  active := s.active
  empty := s.empty
  full := s.full
  writeIndex := s.writeIndex
  readIndex := s.readIndex
  overflowCount := s.overflowCount
  capacitySlots := s.capacitySlots

/-- One observation (R21): "one atomic step that reads all seven at the same instant and changes no state"; the model
notes what was seen. -/
def State.observe (s : State) (agent : Port) : State :=
  { s with observations := s.observations ++ [⟨agent, s.statusOutputs⟩] }

end Sys2Proof.Machine
end

