-- ==== Sys2Proof/Machine/Events.lean ====
section
/-! DEFINITION. Events.lean: what one atomic step of an execution is (20_memory.md R43, R44, R52): which event comes
next, how a port takes its next command, and what each event does. -/

namespace Sys2Proof.Machine

/-- The port has a step to take: a command in flight, or one still to issue (R43). -/
def State.enabled (s : State) (p : Port) : Bool := !s.portIdle p || !(s.commands p).isEmpty

/-- The next event, and the state once it is chosen. While the schedule lists events they come in its order; after that
the port that has a step takes it, and where both have one the choice is free (U15). With nothing enabled there is no
event: the run is over (R52). -/
def State.nextEvent (s : State) : Option (Event × State) :=
  match s.schedule with
  | e :: rest => some (e, { s with schedule := rest })
  | [] =>
    match s.enabled .P, s.enabled .C with
    | false, false => none
    | true, false => some (.turn .P, s)
    | false, true => some (.turn .C, s)
    | true, true => some (.turn (Config.freeTurn s.choices), { s with choices := s.choices + 1 })

/-- An idle port takes the next command its agent issues (R62): decode it and run its first step. With none to issue
the port has no step, and its turn changes nothing. -/
def issueNext (p : Port) (s : State) : Host.Outcome State Fault Refusal :=
  match s.commands p with
  | [] => .next s
  | cmd :: rest =>
    match decode s.cfg p cmd with
    | .ok i => exec i (s.withCommands p rest)
    | .error why => .refused (.notACommand why)

/-- Port `P`'s turn (R44): W2 or W3 of the `WRITE` in flight, or the next command's first step. -/
def turnP (s : State) : Host.Outcome State Fault Refusal :=
  match s.portP with
  | .idle => issueNext .P s
  | .copy f => writeCopy f s
  | .publish f => writePublish f s

/-- Port `C`'s turn (R44): R2 or R3 of the `READ` in flight, or the next command's first step. -/
def turnC (s : State) : Host.Outcome State Fault Refusal :=
  match s.portC with
  | .idle => issueNext .C s
  | .copy f => readCopy f s
  | .publish f => readPublish f s

/-- A port's turn. -/
def turn (p : Port) (s : State) : Host.Outcome State Fault Refusal :=
  match p with
  | .P => turnP s
  | .C => turnC s

/-- What each kind of atomic step does (R43). -/
def runEvent (e : Event) (s : State) : Host.Outcome State Fault Refusal :=
  match e with
  | .turn p => turn p s
  | .observe agent => .next (s.observe agent)
  | .reset => .next s.hostReset

/-- One atomic step. With no event the controller "does nothing except in response to a command, an observation or
reset" (R42). -/
def runStep (s : State) : Host.Outcome State Fault Refusal :=
  match s.nextEvent with
  | none => .next s
  | some (e, t) => runEvent e t

/-- The state in which `cmd` is the next command port `p` issues and the next event is that port's turn: the port idle,
the command first in the agent's list, the turn first in the schedule (assumption log 8). -/
def State.placeCommand (s : State) (p : Port) (cmd : Command) : State :=
  match p with
  | .P => { s with portP := .idle, pCommands := cmd :: s.pCommands, schedule := .turn .P :: s.schedule }
  | .C => { s with portC := .idle, cCommands := cmd :: s.cCommands, schedule := .turn .C :: s.schedule }

end Sys2Proof.Machine
end

