-- ==== Sys2Proof/Machine/Step.lean ====
section
/-! DEFINITION. Step.lean: the machine's step, one atomic step of R43, and the placing of a command where it is taken
next. -/

namespace Sys2Proof.Machine

/-- One atomic step of an execution (R43). -/
def step (s : State) : Host.Outcome State Fault Refusal := runStep s

/-- `s` with the instruction whose bits are `w` placed so that the very next step runs it (assumption log 8). -/
def State.withFetchWord (s : State) (nbits w : Nat) : State :=
  s.placeCommand (tablePort (w % 2 ^ nbits)) (tableCommand s.cfg nbits w)

end Sys2Proof.Machine
end

