-- ==== Sys2Proof/Safety.lean ====
section
/-! DEFINITION. Safety.lean: what claims are stated in terms of: the invariant of every state a run reaches, the contents
of the buffer and who owns which slot (20_memory.md R38), what an event stores, returns and discards (42_transfer_ops.md
R91), the uninterleaved meaning of a transfer (R92), and when a run keeps the contract (70_reset_and_hazards.md R113). -/

namespace Sys2Proof.Machine

/-! The buffer and its slots. -/

/-- The `d` published slots, oldest byte first (R38). -/
def State.publishedSlots (s : State) : List Nat :=
  (List.range s.dataCount).map fun j => adv s.readIndex j s.capacitySlots

/-- The `s` producer-owned slots (R38). -/
def State.producerSlots (s : State) : List Nat :=
  (List.range s.spaceCount).map fun j => adv s.writeIndex j s.capacitySlots

/-- The gap slot, which "neither accesses" (R38). -/
def State.gapSlot (s : State) : Nat := adv s.writeIndex s.spaceCount s.capacitySlots

/-- The slots `len` steps of a copy visit from slot `off` on (R37, R80, R87). -/
def slotsFrom (off len cap : Nat) : List Nat := (List.range len).map fun j => adv off j cap

/-- `S[a]` of a state. -/
def State.byteAt (s : State) (a : Nat) : Byte := s.storage.byteAt a

/-- The bytes in the published slots, oldest first; none while inactive. -/
def State.contents (s : State) : List Byte :=
  if s.active then s.publishedSlots.map fun i => s.byteAt (s.slot i) else []

/-! The invariant. -/

/-- The descriptor of an active buffer: R14, R15, R12. -/
structure ActiveOk (s : State) : Prop where
  two_le_cap : 2 ≤ s.capacitySlots
  cap_le_max : s.capacitySlots ≤ s.cfg.cbMaxSize
  region_fits : s.storageBase + s.capacitySlots ≤ s.cfg.storageBytes
  write_lt : s.writeIndex < s.capacitySlots
  read_lt : s.readIndex < s.capacitySlots

/-- The descriptor of an inactive buffer: the reset state (R12, R26), with nothing in flight. -/
structure InactiveOk (s : State) : Prop where
  write_zero : s.writeIndex = 0
  read_zero : s.readIndex = 0
  overflow_zero : s.overflowCount = 0
  cap_zero : s.capacitySlots = 0
  base_zero : s.storageBase = 0
  idle : s.quiescent = true

/-- A `WRITE` in flight (R23, R79, R80): its amounts, its payload, and the bytes it has stored so far. -/
structure WriteOk (s : State) (f : WriteFlight) : Prop where
  active : s.active = true
  sampled : f.wr = s.writeIndex
  fits : f.k ≤ s.spaceCount
  progress : f.i ≤ f.k
  length : f.src.length = f.k + f.drop
  some_bytes : 0 < f.k + f.drop
  operand : f.k + f.drop < 2 ^ s.cfg.W
  stored : ∀ j < f.i, f.src[j]? = some (s.byteAt (s.slot (adv f.wr j s.capacitySlots)))

/-- A `READ` in flight (R24, R86, R87): its amount, and the bytes it has copied out so far. -/
structure ReadOk (s : State) (f : ReadFlight) : Prop where
  active : s.active = true
  sampled : f.rd = s.readIndex
  some_bytes : 1 ≤ f.k
  available : f.k ≤ s.dataCount
  progress : f.i ≤ f.k
  copied : f.dst = s.contents.take f.i

/-- Port `P`'s sequencer: in `COPY` there are bytes left, in `PUBLISH` none. -/
def WriteSeqOk (s : State) : Prop :=
  match s.portP with
  | .idle => True
  | .copy f => WriteOk s f ∧ f.i < f.k
  | .publish f => WriteOk s f ∧ f.i = f.k

/-- Port `C`'s sequencer. -/
def ReadSeqOk (s : State) : Prop :=
  match s.portC with
  | .idle => True
  | .copy f => ReadOk s f ∧ f.i < f.k
  | .publish f => ReadOk s f ∧ f.i = f.k

/-- What holds of every state a run reaches from reset. -/
structure Inv (s : State) : Prop where
  cfg : s.cfg.Valid
  active : s.active = true → ActiveOk s
  inactive : s.active = false → InactiveOk s
  overflow : s.overflowCount < 2 ^ s.cfg.ovfW
  storage_wf : s.storage.wf
  storage_in_space : ∀ x ∈ s.storage, x.1 < s.cfg.storageBytes
  write_seq : WriteSeqOk s
  read_seq : ReadSeqOk s

/-- Every register has the width R10 gives it. -/
structure RegistersFit (s : State) : Prop where
  write_fits : s.writeIndex < 2 ^ s.cfg.W
  read_fits : s.readIndex < 2 ^ s.cfg.W
  cap_fits : s.capacitySlots < 2 ^ s.cfg.W
  base_fits : s.storageBase < 2 ^ s.cfg.A
  overflow_fits : s.overflowCount < 2 ^ s.cfg.ovfW

/-- A response as R56 and R61 shape it: its value has `W` bits, an error's value is 0 and it returns no bytes. -/
abbrev ResponseFits (c : Config) (r : Response) : Prop :=
  r.value < 2 ^ c.W ∧ (r.status ≠ .ok → r.value = 0 ∧ r.bytes = [])

/-- A response that returns bytes returns exactly `value` of them (R61). -/
abbrev BytesMatch (r : Response) : Prop := r.bytes = [] ∨ r.bytes.length = r.value

/-! What an event does to the stream of bytes. -/

/-- The command the port would take up now: it is idle and its agent's next command decodes. -/
def State.nextCommand (s : State) (p : Port) : Option Instr :=
  if s.portIdle p then
    match s.commands p with
    | [] => none
    | cmd :: _ =>
      match decode s.cfg p cmd with
      | .ok i => some i
      | .error _ => none
  else none

/-- The event is a reset, a successful `INIT` or an effective `CLEAR`: the stream of R91 begins anew. -/
def State.zeroedBy (s : State) : Event → Bool
  | .reset => true
  | .observe _ => false
  | .turn p =>
    match s.nextCommand p with
    | some (.init _ arg0 arg1) => validConfig s.cfg arg1 arg0
    | some (.clear _ _ _) => s.active
    | _ => false

/-- The event is an `INIT` or a `CLEAR` taken up while the peer has a transfer in flight (R113). -/
def State.breaksContract (s : State) : Event → Bool
  | .reset => false
  | .observe _ => false
  | .turn p =>
    match s.nextCommand p with
    | some (.init _ _ _) => !s.portIdle p.peer
    | some (.clear _ _ _) => !s.portIdle p.peer
    | _ => false

/-- The bytes the event publishes: those of a W3 step (R91: "`WRITE`s in the order of their W3 steps"). -/
def State.storedBy (s : State) : Event → List Byte
  | .turn .P =>
    match s.portP with
    | .publish f => f.src.take f.k
    | _ => []
  | _ => []

/-- The bytes the event returns: those of an R3 step (R91). -/
def State.returnedBy (s : State) : Event → List Byte
  | .turn .C =>
    match s.portC with
    | .publish f => f.dst
    | _ => []
  | _ => []

/-- The bytes the event counts as dropped: those of a W3 step (R81, R83). -/
def State.droppedBy (s : State) : Event → Nat
  | .turn .P =>
    match s.portP with
    | .publish f => f.drop
    | _ => 0
  | _ => 0

/-- The bytes stored and the bytes returned since the stream last began anew (R91). -/
structure Stream where
  stored : List Byte
  returned : List Byte
  deriving DecidableEq, Repr

/-- The stream after an event. -/
def Stream.after (t : Stream) (s : State) (e : Event) : Stream :=
  if s.zeroedBy e then ⟨[], []⟩ else ⟨t.stored ++ s.storedBy e, t.returned ++ s.returnedBy e⟩

/-- `n` steps of a run with its stream; none once a step stops. -/
def runStream : Nat → State → Stream → Option (State × Stream)
  | 0, s, t => some (s, t)
  | n + 1, s, t =>
    match s.nextEvent with
    | none => runStream n s t
    | some (e, u) =>
      match runEvent e u with
      | .next v => runStream n v (t.after u e)
      | .fault _ => none
      | .refused _ => none

/-! Transfers. -/

/-- The stores of an uninterleaved `WRITE` of the bytes `bs` (R92): `S[storage_base + adv(write_index, i, cap)] <-
src[i]` for `i` from 0 on. -/
def storeBytes (base start cap : Nat) (bs : List Byte) (m : Memory) : Memory :=
  bs.zipIdx.foldl (fun m x => m.write (base + adv start x.2 cap) x.1) m

/-- How many steps of its own port a command in flight still takes until it has responded (R120, R122). -/
def State.remaining (s : State) : Port → Nat
  | .P =>
    match s.portP with
    | .idle => 0
    | .copy f => f.k - f.i + 1
    | .publish _ => 1
  | .C =>
    match s.portC with
    | .idle => 0
    | .copy f => f.k - f.i + 1
    | .publish _ => 1

/-! Runs. -/

/-- "The run is over when every command of both lists has responded; both ports are then `IDLE`" (R52). -/
def State.runOver (s : State) : Bool := s.quiescent && s.pCommands.isEmpty && s.cCommands.isEmpty

/-- A step that does not stop: neither a fault of the run nor something that is no command. -/
def SafeStep (s : State) : Prop := ∃ t, step s = .next t

/-- A schedule of `n` turns of one port. -/
def turns (p : Port) (n : Nat) : List Event := List.replicate n (.turn p)

end Sys2Proof.Machine
end

