-- ==== Sys2Proof/Certificates/Slice0/Obligations.lean ====
section
/-! DEFINITION. Obligations.lean: the statements for the provers, from the numbered rules of spec/. Each docstring names
the rules; OBLIGATIONS.json lists the statements with their quotations. -/

open Sys2Proof Sys2Proof.Machine

/-! Encoding (30_encoding.md). -/

/-- R53, R54: words written out in the manual's own encoding tables decode to the commands they stand for. -/
def Obligations.SampleWordsDecode : Prop :=
  decode Config.default .P ⟨0x80000000030, []⟩ = .ok (.init .P 6 0x100) ∧
  decode Config.default .C ⟨0x4800000029, []⟩ = .ok (.clear .C 5 9) ∧
  decode Config.default .P ⟨0x4D5E6F78091A2B3C2, []⟩ = .ok (.dataCount .P 0x12345678 0x9ABCDEF0) ∧
  decode Config.default .C ⟨0x3, []⟩ = .ok (.spaceCount .C 0 0) ∧
  decode Config.default .P ⟨0x14, [1, 2]⟩ = .ok (.write .P 2 0 [1, 2]) ∧
  decode Config.default .C ⟨0x2D, []⟩ = .ok (.read .C 5 0) ∧
  decode Config.default .P ⟨0x6, []⟩ = .ok (.reserved6 .P 0 0) ∧
  decode Config.default .C ⟨0x7, []⟩ = .ok (.reserved7 .C 0 0)

/-- R53, R55: every command that can be written is read back from its own word, with every operand bit. -/
def Obligations.DecodeOfEncode : Prop :=
  ∀ (c : Config) (i : Instr), i.WellFormed c → decode c i.port (encode c i) = .ok i

/-- R53, R60: no bit of a word is dropped; each word and payload is the encoding of the one command it decodes to. -/
def Obligations.EncodeOfDecode : Prop :=
  ∀ (c : Config) (p : Port) (cmd : Command) (i : Instr), decode c p cmd = .ok i →
    i.WellFormed c ∧ i.port = p ∧ encode c i = cmd

/-- R53, R60: every word of `3 + W + A` bits decodes on either port, to the row its three `op` bits name, with the
operand fields at the bit positions of R53. -/
def Obligations.EveryWordDecodes : Prop :=
  ∀ (c : Config) (p : Port) (word : Nat) (src : List Byte), word < 2 ^ (3 + c.W + c.A) →
    src.length = (if word % 8 = 4 then word / 8 % 2 ^ c.W else 0) →
    ∃ i, decode c p ⟨word, src⟩ = .ok i ∧ i.port = p ∧ i.opcode = word % 8 ∧ i.arg0 = word / 8 % 2 ^ c.W ∧
      i.arg1 = word / 2 ^ (c.W + 3) % 2 ^ c.A ∧ i.payload = src

/-- R56, R57: the response word is `status + value * 4` with the code numbers of R57, has `2 + W` bits, and the
response is read back from it. -/
def Obligations.ResponseWordRoundTrip : Prop :=
  ∀ (c : Config) (v : Nat) (bs : List Byte), v < 2 ^ c.W →
    Response.word ⟨.ok, v, bs⟩ = 0 + v * 4 ∧ Response.word ⟨.notActive, v, bs⟩ = 1 + v * 4 ∧
    Response.word ⟨.invalidConfiguration, v, bs⟩ = 2 + v * 4 ∧ Response.word ⟨.illegalCommand, v, bs⟩ = 3 + v * 4 ∧
    ∀ st, Response.word ⟨st, v, bs⟩ < 2 ^ (2 + c.W) ∧
      decodeResponse c (Response.word ⟨st, v, bs⟩) bs = ⟨st, v, bs⟩

/-- R61, D25 (log 11): what is presented on an idle port and is no command stops the run by name. -/
def Obligations.NotACommandIsRefused : Prop :=
  ∀ (s : State) (p : Port) (cmd : Command) (rest : List Command) (why : DecodeError),
    s.portIdle p = true → s.commands p = cmd :: rest → decode s.cfg p cmd = .error why →
    runEvent (.turn p) s = .refused (.notACommand why)

/-! Reset (10_state.md R26, 70_reset_and_hazards.md R107 to R109). -/

/-- R26: the registers, the phases and the flags after reset; every storage byte holds an unspecified value (the free
value of its address), and the host's reset changes none. -/
def Obligations.ResetValues : Prop :=
  State.reset.active = false ∧ State.reset.writeIndex = 0 ∧ State.reset.readIndex = 0 ∧
  State.reset.overflowCount = 0 ∧ State.reset.capacitySlots = 0 ∧ State.reset.storageBase = 0 ∧
  State.reset.portP.phase = .idle ∧ State.reset.portC.phase = .idle ∧
  State.reset.empty = true ∧ State.reset.full = true ∧
  (∀ a, State.reset.byteAt a = Config.powerUpByte a) ∧ ∀ (s : State) (a : Nat), s.hostReset.byteAt a = s.byteAt a

/-- R107, R108, R109: reset at any point sets the registers and phases of R107, changes no storage byte, and abandons
the commands in flight without a response. That the agents' commands still to issue, the schedule and the logs stay is
the model's choice (log 12). -/
def Obligations.HostResetStep : Prop :=
  ∀ s : State, runEvent .reset s = .next { s with
      active := false, writeIndex := 0, readIndex := 0, overflowCount := 0, capacitySlots := 0, storageBase := 0,
      portP := .idle, portC := .idle } ∧
    s.hostReset.empty = true ∧ s.hostReset.full = true ∧
    (∀ a, s.hostReset.byteAt a = s.byteAt a) ∧ ∀ p, s.hostReset.responses p = s.responses p

/-- The reset state meets the invariant (with the parameters of log 3). -/
def Obligations.InvAtReset : Prop := Inv State.reset

/-! What a response is (R56), and what the meanings share. -/

/-- R7, R56: `respond` issues one response with its status, value and bytes on the issuing port and changes nothing
else. -/
def Obligations.RespondIssuesOneResponse : Prop :=
  ∀ (s : State) (st : Status) (v : Nat) (bs : List Byte),
    s.respond .P st v bs = { s with pResponses := s.pResponses ++ [⟨st, v, bs⟩] } ∧
    s.respond .C st v bs = { s with cResponses := s.cResponses ++ [⟨st, v, bs⟩] }

/-! Configuration commands (40_config_ops.md). -/

/-- R65, R66, R67: an `INIT` that passes the three tests of R66 writes all six registers and answers `OK 0`, on either
port and whatever `active` is, and leaves `EMPTY = 1` and `FULL = 0`; one that fails any of them changes nothing and answers
`INVALID_CONFIGURATION 0`. -/
def Obligations.InitBindsOrChangesNothing : Prop :=
  ∀ (s : State) (p : Port) (cap base : Nat), s.portIdle p = true → s.portIdle p.peer = true →
    (2 ≤ cap ∧ cap ≤ s.cfg.cbMaxSize ∧ base + cap ≤ s.cfg.storageBytes →
      ∃ t, exec (.init p cap base) s = .next t ∧ t = State.respond { s with
        storageBase := base, capacitySlots := cap, writeIndex := 0, readIndex := 0, overflowCount := 0, active := true }
        p .ok 0 [] ∧ t.empty = true ∧ t.full = false) ∧
    (¬(2 ≤ cap ∧ cap ≤ s.cfg.cbMaxSize ∧ base + cap ≤ s.cfg.storageBytes) →
      exec (.init p cap base) s = .next (s.respond p .invalidConfiguration 0 []))

/-- R68: `CLEAR` ignores its fields; on an active descriptor it zeroes the indices and the counter and answers `OK 0`,
leaving `EMPTY = 1` and `FULL = 0`; on an inactive one it changes nothing and answers `NOT_ACTIVE 0`. -/
def Obligations.ClearZeroes : Prop :=
  ∀ (s : State) (p : Port) (a b : Nat), s.portIdle p = true → s.portIdle p.peer = true →
    (s.active = true →
      ∃ t, exec (.clear p a b) s = .next t ∧
        t = State.respond { s with writeIndex := 0, readIndex := 0, overflowCount := 0 } p .ok 0 [] ∧
        t.empty = true ∧ (2 ≤ s.capacitySlots → t.full = false)) ∧
    (s.active = false → exec (.clear p a b) s = .next (s.respond p .notActive 0 []))

/-- R69: `INIT` or `CLEAR` with a transfer of the peer in flight is a fault of the run, whatever its operands. -/
def Obligations.ConfigNeedsQuiescentPeer : Prop :=
  ∀ (s : State) (p : Port) (a b : Nat), s.portIdle p = true → s.portIdle p.peer = false →
    exec (.init p a b) s = .fault .peerInFlight ∧ exec (.clear p a b) s = .fault .peerInFlight

/-- R70: a second `CLEAR`, on either port, leaves an active descriptor as the first did, its data count and overflow
count 0; a second successful `INIT` with the same operands, on either port, leaves the descriptor as the first did,
whether or not it was active before. -/
def Obligations.ConfigIdempotent : Prop :=
  ∀ (s : State) (p q : Port) (a b c d : Nat), s.quiescent = true →
    (s.active = true →
      ∃ t u, exec (.clear p a b) s = .next t ∧ exec (.clear q c d) t = .next u ∧
        u.statusOutputs = t.statusOutputs ∧ u.storageBase = t.storageBase ∧ u.dataCount = 0 ∧ u.overflowCount = 0) ∧
    (validConfig s.cfg b a = true →
      ∃ t u, exec (.init p a b) s = .next t ∧ exec (.init q a b) t = .next u ∧
        u.statusOutputs = t.statusOutputs ∧ u.storageBase = t.storageBase)

/-! Query commands (41_query_ops.md). -/

/-- R71: `DATA_COUNT` changes nothing and answers `(write_index - read_index) mod capacity_slots`, the largest value
exactly when `FULL`; on an inactive descriptor it answers `NOT_ACTIVE 0`. -/
def Obligations.DataCountIsDifferenceModCapacity : Prop :=
  ∀ (s : State) (p : Port) (a b : Nat), s.portIdle p = true →
    (s.active = false → exec (.dataCount p a b) s = .next (s.respond p .notActive 0 [])) ∧
    (s.active = true → 2 ≤ s.capacitySlots → s.writeIndex < s.capacitySlots → s.readIndex < s.capacitySlots →
      ∃ d : Nat, (d : ℤ) = ((s.writeIndex : ℤ) - s.readIndex) % s.capacitySlots ∧
        exec (.dataCount p a b) s = .next (s.respond p .ok d []) ∧ d ≤ s.capacitySlots - 1 ∧
        (d = s.capacitySlots - 1 ↔ s.full = true))

/-- R72: `SPACE_COUNT` changes nothing and answers `capacity_slots - 1` less the data count; on an inactive descriptor
it answers `NOT_ACTIVE 0`. -/
def Obligations.SpaceCountIsTheRest : Prop :=
  ∀ (s : State) (p : Port) (a b : Nat), s.portIdle p = true →
    (s.active = false → exec (.spaceCount p a b) s = .next (s.respond p .notActive 0 [])) ∧
    (s.active = true → 2 ≤ s.capacitySlots → s.writeIndex < s.capacitySlots → s.readIndex < s.capacitySlots →
      ∃ v : Nat, (v : ℤ) = s.capacitySlots - 1 - ((s.writeIndex : ℤ) - s.readIndex) % s.capacitySlots ∧
        exec (.spaceCount p a b) s = .next (s.respond p .ok v []) ∧ v ≤ s.capacitySlots - 1)

/-- R74: a `DATA_COUNT` and then a `SPACE_COUNT`, on any two ports, answer values that sum to `capacity_slots - 1`. -/
def Obligations.CountsSumToUsableCapacity : Prop :=
  ∀ (s : State) (p q : Port) (a b c d : Nat), ActiveOk s → s.active = true → s.portIdle p = true →
    s.portIdle q = true →
    ∃ (m n : Nat) (t u : State), exec (.dataCount p a b) s = .next t ∧ exec (.spaceCount q c d) t = .next u ∧
      t.responses p = s.responses p ++ [⟨.ok, m, []⟩] ∧ u.responses q = t.responses q ++ [⟨.ok, n, []⟩] ∧
      m + n = s.capacitySlots - 1

/-- R19, R20, R76: `EMPTY` is 1 exactly when a `DATA_COUNT` would answer 0 and `FULL` exactly when a `SPACE_COUNT` would,
active or not; while active `FULL` is 1 exactly when the data count is `capacity_slots - 1`, and both are never 1. -/
def Obligations.FlagsAgreeWithCounts : Prop :=
  ∀ s : State, (s.active = true → ActiveOk s) →
    (s.active = false → s.empty = true ∧ s.full = true) ∧
    (s.active = true →
      (s.empty = true ↔ s.dataCount = 0) ∧ (s.full = true ↔ s.spaceCount = 0) ∧
      (s.full = true ↔ s.dataCount = s.capacitySlots - 1) ∧ ¬(s.empty = true ∧ s.full = true)) ∧
    ∀ (p : Port) (a b : Nat), s.portIdle p = true →
      ∃ (st : Status) (d v : Nat), exec (.dataCount p a b) s = .next (s.respond p st d []) ∧
        exec (.spaceCount p a b) s = .next (s.respond p st v []) ∧ (s.empty = true ↔ d = 0) ∧ (s.full = true ↔ v = 0)

/-- R73: between two queries of one agent, with no command of its own moving its index and no `INIT`, `CLEAR` or reset,
the peer's steps only add data for the consumer and only free slots for the producer. -/
def Obligations.CountsStaleOnTheSafeSide : Prop :=
  ∀ (s t : State), Inv s →
    (s.zeroedBy (.turn .P) = false → runEvent (.turn .P) s = .next t → s.dataCount ≤ t.dataCount) ∧
    (s.zeroedBy (.turn .C) = false → runEvent (.turn .C) s = .next t → s.spaceCount ≤ t.spaceCount)

/-! Errors (60_exceptions.md). -/

/-- R94: with `active = 0` every legal command but `INIT` changes nothing and answers `NOT_ACTIVE 0`, a `WRITE` or
`READ` of 0 bytes too (R99). -/
def Obligations.NotActiveChangesNothing : Prop :=
  ∀ (s : State) (p : Port) (a b : Nat) (src : List Byte), s.active = false → s.portIdle p = true →
    (s.portIdle p.peer = true → exec (.clear p a b) s = .next (s.respond p .notActive 0 [])) ∧
    exec (.dataCount p a b) s = .next (s.respond p .notActive 0 []) ∧
    exec (.spaceCount p a b) s = .next (s.respond p .notActive 0 []) ∧
    (p = .P → exec (.write p a b src) s = .next (s.respond p .notActive 0 [])) ∧
    (p = .C → exec (.read p a b) s = .next (s.respond p .notActive 0 []))

/-- R59: the reserved `op` values, a `WRITE` on port `C` and a `READ` on port `P` answer `ILLEGAL_COMMAND 0` and change
nothing, whatever `active` is. -/
def Obligations.IllegalCommandChangesNothing : Prop :=
  ∀ (s : State) (p : Port) (a b : Nat) (src : List Byte), s.portIdle p = true →
    exec (.reserved6 p a b) s = .next (s.respond p .illegalCommand 0 []) ∧
    exec (.reserved7 p a b) s = .next (s.respond p .illegalCommand 0 []) ∧
    (p = .C → exec (.write p a b src) s = .next (s.respond p .illegalCommand 0 [])) ∧
    (p = .P → exec (.read p a b) s = .next (s.respond p .illegalCommand 0 []))

/-- R98: a command that is answered with an error code has had no effect at all: the response apart, the state is the
one it found, with the command taken off its agent's list. -/
def Obligations.ErrorsArePrecise : Prop :=
  ∀ (s t : State) (p : Port) (r : Response), runEvent (.turn p) s = .next t →
    t.responses p = s.responses p ++ [r] → r.status ≠ .ok →
    r.value = 0 ∧ r.bytes = [] ∧ t = (s.withCommands p (s.commands p).tail).respond p r.status 0 []

/-- R99: which condition answers a command where several apply: first IllegalCommand, then InvalidConfiguration or
NotActive, then the zero length, then no data for `READ` and, for `WRITE`, no answer yet. -/
def Obligations.ConditionsInPriorityOrder : Prop :=
  ∀ (s t : State) (i : Instr), exec i s = .next t →
    ∀ answers : Status → Nat → Prop,
      (∀ st v, answers st v ↔ t.responses i.port = s.responses i.port ++ [⟨st, v, []⟩]) →
      (i.legal = false → answers .illegalCommand 0) ∧
      (i.opcode = 0 → validConfig s.cfg i.arg1 i.arg0 = false → answers .invalidConfiguration 0) ∧
      (i.legal = true → i.opcode ≠ 0 → s.active = false → answers .notActive 0) ∧
      (i.legal = true → i.opcode = 4 ∨ i.opcode = 5 → s.active = true → i.arg0 = 0 → answers .ok 0) ∧
      (i.legal = true → i.opcode = 5 → s.active = true → s.dataCount = 0 → answers .ok 0) ∧
      (i.legal = true → i.opcode = 4 → s.active = true → i.arg0 ≠ 0 → t.responses i.port = s.responses i.port)

/-- Log 10 (U8): the meaning of a command on a port that is busy stops by name; `step` holds the command instead
(`BusyPortHoldsItsCommands`). -/
def Obligations.BusyPortRunsNoCommand : Prop :=
  ∀ (s : State) (i : Instr), s.portIdle i.port = false → exec i s = .fault .portBusy

/-! Transfer commands, step by step (42_transfer_ops.md). -/

/-- R79: step W1. With `active = 0` the answer is `NOT_ACTIVE 0`, with `nbytes = 0` it is `OK 0`; else the amounts are
sampled and the phase is `COPY` if there is space for a byte, `PUBLISH` if not; nothing else changes. -/
def Obligations.WriteSamples : Prop :=
  ∀ (s : State) (n b : Nat) (src : List Byte), s.portP = .idle →
    (s.active = false → exec (.write .P n b src) s = .next (s.respond .P .notActive 0 [])) ∧
    (s.active = true → n = 0 → exec (.write .P n b src) s = .next (s.respond .P .ok 0 [])) ∧
    (s.active = true → n ≠ 0 →
      ∀ space k : Nat, space = s.capacitySlots - 1 - diff s.writeIndex s.readIndex s.capacitySlots →
        k = min n space →
        exec (.write .P n b src) s = .next { s with
          portP := if k > 0 then .copy ⟨s.writeIndex, k, 0, n - k, src⟩
            else .publish ⟨s.writeIndex, k, 0, n - k, src⟩ })

/-- R80: step W2 stores one byte, at the address R80 computes, and advances the sequencer; nothing else changes. -/
def Obligations.WriteCopiesOneByte : Prop :=
  ∀ (s : State) (f : WriteFlight) (v : Byte), s.portP = .copy f → f.src[f.i]? = some v →
    s.storageBase + adv f.wr f.i s.capacitySlots < s.cfg.storageBytes →
    ∃ t, runEvent (.turn .P) s = .next t ∧
      t = { s with
        storage := t.storage
        portP := if f.i + 1 = f.k then .publish ⟨f.wr, f.k, f.i + 1, f.drop, f.src⟩
          else .copy ⟨f.wr, f.k, f.i + 1, f.drop, f.src⟩ } ∧
      ∀ a, t.byteAt a = if a = s.storageBase + adv f.wr f.i s.capacitySlots then v else s.byteAt a

/-- R81: step W3 publishes `write_index`, adds the dropped bytes to the counter, saturating, and responds, at one
instant. -/
def Obligations.WritePublishes : Prop :=
  ∀ (s : State) (f : WriteFlight), s.portP = .publish f →
    runEvent (.turn .P) s = .next (State.respond { s with
      writeIndex := adv f.wr f.k s.capacitySlots
      overflowCount := min (s.overflowCount + f.drop) (2 ^ s.cfg.ovfW - 1)
      portP := .idle } .P .ok f.k [])

/-- R86: step R1, in its four cases. -/
def Obligations.ReadSamples : Prop :=
  ∀ (s : State) (n b : Nat), s.portC = .idle →
    (s.active = false → exec (.read .C n b) s = .next (s.respond .C .notActive 0 [])) ∧
    (s.active = true → ∀ data : Nat, data = diff s.writeIndex s.readIndex s.capacitySlots →
      ((n = 0 ∨ data = 0) → exec (.read .C n b) s = .next (s.respond .C .ok 0 [])) ∧
      (n ≠ 0 → data ≠ 0 →
        exec (.read .C n b) s = .next { s with portC := .copy ⟨s.readIndex, min n data, 0, []⟩ }))

/-- R87: step R2 appends the one byte at the address R87 computes and advances the sequencer; nothing else changes. -/
def Obligations.ReadCopiesOneByte : Prop :=
  ∀ (s : State) (f : ReadFlight), s.portC = .copy f →
    s.storageBase + adv f.rd f.i s.capacitySlots < s.cfg.storageBytes →
    ∀ dst, dst = f.dst ++ [s.byteAt (s.storageBase + adv f.rd f.i s.capacitySlots)] →
      runEvent (.turn .C) s = .next { s with
        portC := if f.i + 1 = f.k then .publish ⟨f.rd, f.k, f.i + 1, dst⟩ else .copy ⟨f.rd, f.k, f.i + 1, dst⟩ }

/-- R88: step R3 publishes `read_index` and responds with the count and the bytes. -/
def Obligations.ReadPublishes : Prop :=
  ∀ (s : State) (f : ReadFlight), s.portC = .publish f →
    runEvent (.turn .C) s = .next (State.respond { s with
      readIndex := adv f.rd f.k s.capacitySlots, portC := .idle } .C .ok f.k f.dst)

/-! The step (20_memory.md R42 to R44, 10_state.md R21). -/

/-- R53, R62: when an idle port's turn comes and its agent's next command decodes to `i`, the step is `exec` of `i`,
the turn and the command taken off their lists; `i` is well-formed. -/
def Obligations.StepRunsTheDecodedCommand : Prop :=
  ∀ (s : State) (p : Port) (es : List Event) (cmd : Command) (rest : List Command) (i : Instr),
    s.schedule = .turn p :: es → s.portIdle p = true → s.commands p = cmd :: rest → decode s.cfg p cmd = .ok i →
    step s = exec i ({ s with schedule := es }.withCommands p rest) ∧ i.WellFormed s.cfg

/-- R43, U15 (log 6): the step is the schedule's next event; past the schedule it is the turn of a port that has a
step, of either where both have one; with none it changes nothing. -/
def Obligations.StepFollowsTheSchedule : Prop :=
  ∀ s : State,
    (∀ e es, s.schedule = e :: es → step s = runEvent e { s with schedule := es }) ∧
    (s.schedule = [] →
      (s.enabled .P = false → s.enabled .C = false → step s = .next s) ∧
      (s.enabled .P = true → s.enabled .C = false → step s = runEvent (.turn .P) s) ∧
      (s.enabled .P = false → s.enabled .C = true → step s = runEvent (.turn .C) s) ∧
      (s.enabled .P = true → s.enabled .C = true →
        ∃ p, step s = runEvent (.turn p) { s with choices := s.choices + 1 }))

/-- R62: a port's list of commands gets shorter only by that port's own turn while it is idle, by the one command it
takes up. That a reset, too, leaves the lists alone is the model's choice (log 12). -/
def Obligations.BusyPortHoldsItsCommands : Prop :=
  ∀ (s t : State) (e : Event) (p : Port), runEvent e s = .next t → t.commands p ≠ s.commands p →
    e = .turn p ∧ s.portIdle p = true ∧ t.commands p = (s.commands p).tail

/-- R21: an observation reads the seven status outputs at one instant and changes nothing of the controller. -/
def Obligations.ObservationReadsAllSeven : Prop :=
  ∀ (s : State) (agent : Port), runEvent (.observe agent) s = .next { s with
    observations := s.observations ++ [{
      agent := agent
      seen := {
        active := s.active
        empty := if s.active then decide (s.writeIndex = s.readIndex) else true
        full := if s.active then decide (adv s.writeIndex 1 s.capacitySlots = s.readIndex) else true
        writeIndex := s.writeIndex
        readIndex := s.readIndex
        overflowCount := s.overflowCount
        capacitySlots := s.capacitySlots } }] }

/-! Arithmetic and the storage (20_memory.md, 00_scope.md R6). -/

/-- R35: `diff` is the difference modulo the capacity, at most `cap - 1`. -/
def Obligations.DiffIsDifferenceMod : Prop :=
  ∀ w r cap : Nat, 2 ≤ cap → w < cap → r < cap →
    (diff w r cap : ℤ) = ((w : ℤ) - r) % cap ∧ diff w r cap ≤ cap - 1 ∧ diff w w cap = 0

/-- R36: `adv` is the sum modulo the capacity, below it. -/
def Obligations.AdvIsSumMod : Prop :=
  ∀ idx k cap : Nat, 2 ≤ cap → idx < cap → k ≤ cap - 1 →
    adv idx k cap = (idx + k) % cap ∧ adv idx k cap < cap ∧ adv idx 0 cap = idx

/-- R37: the slots a copy visits are the two segments of `split`, one after the other; the second is not empty just when
the copy wraps, and no slot is visited twice. -/
def Obligations.SplitCoversTheCopy : Prop :=
  ∀ off len cap : Nat, 2 ≤ cap → off < cap → len ≤ cap - 1 →
    ∀ len1 len2, split off len cap = (len1, len2) →
      len1 = min len (cap - off) ∧ len1 + len2 = len ∧ (0 < len2 ↔ cap < off + len) ∧
      slotsFrom off len cap = List.range' off len1 ++ List.range len2 ∧ (slotsFrom off len cap).Nodup

/-- R39, R41: a byte written through the mux enables its own lane alone, carries the byte in every lane, and changes
that byte of the storage and no other. -/
def Obligations.MuxWriteChangesOneByte : Prop :=
  ∀ (lanes : Lanes) (m : Memory) (a b : Nat) (v : Byte),
    (muxWrite lanes a v).wa = a / lanes.bytes ∧
    (∀ j, (muxWrite lanes a v).be.testBit j = decide (j = a % lanes.bytes)) ∧
    (muxWrite lanes a v).wdata = List.replicate lanes.bytes v ∧
    (wordWrite lanes m (muxWrite lanes a v)).byteAt b = if b = a then v else m.byteAt b

/-- R40, R41: the word read holds the bytes of its lanes, and the mux selects exactly `S[a]` from it. -/
def Obligations.MuxReadSelectsTheByte : Prop :=
  ∀ (lanes : Lanes) (m : Memory) (a : Nat),
    (∀ j < lanes.bytes, (wordRead lanes m (a / lanes.bytes))[j]? =
      some (m.byteAt (a / lanes.bytes * lanes.bytes + j))) ∧
    muxRead lanes m a = m.byteAt a

/-- R31, R34: the one event that changes a storage byte is step W2, and the one byte it changes is the payload byte at
the address R80 computes. -/
def Obligations.OnlyWriteCopyStores : Prop :=
  ∀ (s t : State) (e : Event) (a : Nat), runEvent e s = .next t → t.byteAt a ≠ s.byteAt a →
    ∃ f, e = .turn .P ∧ s.portP = .copy f ∧ a = s.writeAddress f ∧ f.src[f.i]? = some (t.byteAt a)

/-- Frame of the eight commands' first steps: no storage byte, no parameter, no observation, no part of the schedule,
no command list and nothing of the peer's port changes, whichever command it is. -/
def Obligations.CommandFrame : Prop :=
  ∀ (i : Instr) (s t : State), exec i s = .next t →
    (∀ a, t.byteAt a = s.byteAt a) ∧ t.cfg = s.cfg ∧ t.schedule = s.schedule ∧ t.choices = s.choices ∧
    t.observations = s.observations ∧ t.pCommands = s.pCommands ∧ t.cCommands = s.cCommands ∧
    (i.port = .P → t.portC = s.portC ∧ t.cResponses = s.cResponses) ∧
    (i.port = .C → t.portP = s.portP ∧ t.pResponses = s.pResponses) ∧
    (i.opcode ≠ 4 → t.portP = s.portP) ∧ (i.opcode ≠ 5 → t.portC = s.portC) ∧
    (i.opcode ≠ 0 → t.capacitySlots = s.capacitySlots ∧ t.storageBase = s.storageBase ∧ t.active = s.active) ∧
    (i.opcode ≠ 0 → i.opcode ≠ 1 →
      t.writeIndex = s.writeIndex ∧ t.readIndex = s.readIndex ∧ t.overflowCount = s.overflowCount)

/-- R38: the published slots, the producer's and the gap slot are all the slots, each once; the gap slot is the one
before `read_index`. -/
def Obligations.SlotsArePartitioned : Prop :=
  ∀ s : State, ActiveOk s →
    (s.publishedSlots ++ s.producerSlots ++ [s.gapSlot]).Perm (List.range s.capacitySlots) ∧
    s.gapSlot = (s.readIndex + s.capacitySlots - 1) % s.capacitySlots

/-- R31, R38: what step W2 stores to is a slot the producer owns, what step R2 reads is a published slot, and both
addresses lie in the storage region. -/
def Obligations.TransfersKeepToTheirSlots : Prop :=
  ∀ s : State, Inv s →
    (∀ f, s.portP = .copy f → adv f.wr f.i s.capacitySlots ∈ s.producerSlots ∧
      s.storageBase ≤ s.writeAddress f ∧ s.writeAddress f < s.storageBase + s.capacitySlots) ∧
    (∀ f, s.portC = .copy f → adv f.rd f.i s.capacitySlots ∈ s.publishedSlots ∧
      s.storageBase ≤ s.readAddress f ∧ s.readAddress f < s.storageBase + s.capacitySlots)

/-! Invariants and rules of the whole machine. -/

/-- The invariant (R12, R14, R15, R23, R24 and what a transfer in flight has done so far) is kept by every step. -/
def Obligations.EveryStepKeepsInv : Prop := ∀ s t : State, Inv s → step s = .next t → Inv t

/-- R6, R10, R23, R24: in every state that keeps the invariant each register and sequencer field has the width the manual
gives it, and no sum that the index arithmetic forms needs more than `W` bits. -/
def Obligations.RegistersKeepTheirWidths : Prop :=
  ∀ s : State, Inv s → RegistersFit s ∧
    (∀ f, s.portP = .copy f ∨ s.portP = .publish f →
      f.wr < 2 ^ s.cfg.W ∧ f.k < 2 ^ s.cfg.W ∧ f.i < 2 ^ s.cfg.W ∧ f.drop < 2 ^ s.cfg.W) ∧
    (∀ f, s.portC = .copy f ∨ s.portC = .publish f →
      f.rd < 2 ^ s.cfg.W ∧ f.k < 2 ^ s.cfg.W ∧ f.i < 2 ^ s.cfg.W) ∧
    (s.active = true → ∀ k, k ≤ s.capacitySlots - 1 →
      s.writeIndex + k < 2 ^ s.cfg.W ∧ s.readIndex + k < 2 ^ s.cfg.W ∧ s.writeIndex + s.capacitySlots < 2 ^ s.cfg.W)

/-- R18: a publish step adds exactly the bytes it stored, so that the data count stays below the capacity, and leaves
`write_index = read_index` only where the buffer was empty and nothing was stored. -/
def Obligations.OneSlotGap : Prop :=
  ∀ (s t : State) (f : WriteFlight), Inv s → s.portP = .publish f → runEvent (.turn .P) s = .next t →
    t.dataCount = s.dataCount + f.k ∧ t.dataCount ≤ t.capacitySlots - 1 ∧
    (t.writeIndex = t.readIndex → s.writeIndex = s.readIndex ∧ f.k = 0)

/-- R14, R15, R17: capacity, base and `active` change only by a reset or a successful `INIT`; no command clears
`active`. -/
def Obligations.OnlyInitBinds : Prop :=
  ∀ (s t : State) (e : Event), runEvent e s = .next t →
    (t.capacitySlots ≠ s.capacitySlots ∨ t.storageBase ≠ s.storageBase ∨ t.active ≠ s.active) →
    e = .reset ∨ ∃ p cap base, e = .turn p ∧ s.nextCommand p = some (.init p cap base) ∧
      validConfig s.cfg base cap = true ∧ t.capacitySlots = cap ∧ t.storageBase = base ∧ t.active = true

/-- R25: but for `INIT`, `CLEAR` and reset, only port `P`'s steps write `write_index`, `overflow_count`, the `p_` fields
and the storage, and only port `C`'s write `read_index` and the `c_` fields. -/
def Obligations.EachIndexHasOneWriter : Prop :=
  ∀ (s t : State) (e : Event), runEvent e s = .next t → s.zeroedBy e = false →
    (e ≠ .turn .P → t.writeIndex = s.writeIndex ∧ t.overflowCount = s.overflowCount ∧ t.portP = s.portP ∧
      ∀ a, t.byteAt a = s.byteAt a) ∧
    (e ≠ .turn .C → t.readIndex = s.readIndex ∧ t.portC = s.portC)

/-- R82, R89: but for `INIT`, `CLEAR` and reset, the descriptor registers change only in a publish step; between the
sample and the publish they are exactly as they were. -/
def Obligations.OnlyPublishIsVisible : Prop :=
  ∀ (s t : State) (e : Event), runEvent e s = .next t → s.zeroedBy e = false →
    (∀ f, e = .turn .P → s.portP ≠ .publish f) → (∀ f, e = .turn .C → s.portC ≠ .publish f) →
    t.statusOutputs = s.statusOutputs ∧ t.storageBase = s.storageBase

/-- R16, R83: the overflow count grows by exactly the bytes a publish step dropped, saturating, and is 0 after `INIT`,
`CLEAR` and reset; so it never decreases between two zeroings. -/
def Obligations.OverflowCountsDroppedBytes : Prop :=
  ∀ (s t : State) (e : Event), s.overflowCount < 2 ^ s.cfg.ovfW → runEvent e s = .next t →
    (s.zeroedBy e = true → t.overflowCount = 0) ∧
    (s.zeroedBy e = false →
      t.overflowCount = min (s.overflowCount + s.droppedBy e) (2 ^ s.cfg.ovfW - 1) ∧
      s.overflowCount ≤ t.overflowCount)

/-- R56, R61: every response a run issues has a value of `W` bits, 0 and no bytes with an error code, and as many bytes
as its value says where it returns any. -/
def Obligations.ResponsesStayWellFormed : Prop :=
  ∀ (s t : State), Inv s → step s = .next t →
    (∀ p, ∀ r ∈ s.responses p, ResponseFits s.cfg r ∧ BytesMatch r) →
    ∀ p, ∀ r ∈ t.responses p, ResponseFits t.cfg r ∧ BytesMatch r

/-- R98, R106, R120: while the contract of R113 is kept and every command presented is one, no event stops the run: no
step of one port is disabled by the state of the other. -/
def Obligations.NothingStopsUnderTheContract : Prop :=
  ∀ (s : State) (e : Event), Inv s → s.breaksContract e = false →
    (∀ p cmd rest, e = .turn p → s.portIdle p = true → s.commands p = cmd :: rest →
      ∃ i, decode s.cfg p cmd = .ok i) →
    ∃ t, runEvent e s = .next t

/-- R120, R122: a command in flight takes one step nearer its response with every turn of its own port, responds when
none is left, needs at most `capacity_slots` more, and no other event but a reset changes how many it needs. -/
def Obligations.TransfersFinishInBoundedSteps : Prop :=
  ∀ (s : State) (p : Port), Inv s → 0 < s.remaining p →
    s.remaining p ≤ s.capacitySlots ∧
    (∃ t, runEvent (.turn p) s = .next t ∧ t.remaining p + 1 = s.remaining p ∧
      (t.remaining p = 0 → ∃ r, t.responses p = s.responses p ++ [r])) ∧
    (∀ e t, e ≠ .turn p → e ≠ .reset → runEvent e s = .next t → t.remaining p = s.remaining p)

/-! The stream of bytes and the uninterleaved meaning (42_transfer_ops.md R91, R92). -/

/-- R91, one event: a publish of the producer appends what it stored to the contents of the buffer, a publish of the
consumer takes what it returns from their front, nothing else changes them, and a zeroing leaves none. -/
def Obligations.FifoStep : Prop :=
  ∀ (s t : State) (e : Event), Inv s → runEvent e s = .next t →
    (s.zeroedBy e = true → t.contents = []) ∧
    (s.zeroedBy e = false → s.returnedBy e ++ t.contents = s.contents ++ s.storedBy e)

/-- R91: from an empty buffer on, under every interleaving, the bytes returned are a prefix of the bytes stored since the
last zeroing, and what is missing is the contents of the buffer. -/
def Obligations.FirstInFirstOut : Prop :=
  ∀ (n : Nat) (s t : State) (h : Stream), Inv s → s.contents = [] → runStream n s ⟨[], []⟩ = some (t, h) →
    h.returned <+: h.stored ∧ h.stored = h.returned ++ t.contents

/-- R92: a `WRITE` whose steps no step of the peer separates is one atomic transition. -/
def Obligations.WriteUninterleaved : Prop :=
  ∀ (s : State) (es : List Event) (cmd : Command) (rest : List Command) (n b : Nat) (src : List Byte) (k : Nat),
    Inv s → s.active = true → s.portP = .idle → s.pCommands = cmd :: rest →
    decode s.cfg .P cmd = .ok (.write .P n b src) → 0 < n →
    k = min n (s.capacitySlots - 1 - diff s.writeIndex s.readIndex s.capacitySlots) →
    s.schedule = turns .P (k + 2) ++ es →
    ∃ t, core.run (k + 2) s = .next t ∧
      t = { s with
        storage := t.storage
        writeIndex := adv s.writeIndex k s.capacitySlots
        overflowCount := min (s.overflowCount + (n - k)) (2 ^ s.cfg.ovfW - 1)
        schedule := es
        pCommands := rest
        pResponses := s.pResponses ++ [⟨.ok, k, []⟩] } ∧
      ∀ a, t.byteAt a =
        (storeBytes s.storageBase s.writeIndex s.capacitySlots (src.take k) s.storage).byteAt a

/-- R92: a `READ` whose steps no step of the peer separates is one atomic transition. -/
def Obligations.ReadUninterleaved : Prop :=
  ∀ (s : State) (es : List Event) (cmd : Command) (rest : List Command) (n b : Nat) (k : Nat),
    Inv s → s.active = true → s.portC = .idle → s.cCommands = cmd :: rest →
    decode s.cfg .C cmd = .ok (.read .C n b) → 0 < n →
    k = min n (diff s.writeIndex s.readIndex s.capacitySlots) → 0 < k →
    s.schedule = turns .C (k + 2) ++ es →
    core.run (k + 2) s = .next { s with
      readIndex := adv s.readIndex k s.capacitySlots
      schedule := es
      cCommands := rest
      cResponses := s.cResponses ++ [⟨.ok, k,
        (List.range k).map fun i => s.byteAt (s.storageBase + adv s.readIndex i s.capacitySlots)⟩] }

/-- R91, S2: with the buffer empty, writing at most the space there is and then reading as many yields back exactly the
bytes written, in order, wherever the copy wraps. -/
def Obligations.WriteThenReadReturnsTheBytes : Prop :=
  ∀ (s : State) (cw cr : Command) (a b : Nat) (src : List Byte),
    Inv s → s.active = true → s.quiescent = true → s.writeIndex = s.readIndex →
    s.pCommands = [cw] → decode s.cfg .P cw = .ok (.write .P src.length a src) →
    s.cCommands = [cr] → decode s.cfg .C cr = .ok (.read .C src.length b) →
    0 < src.length → src.length ≤ s.capacitySlots - 1 →
    s.schedule = turns .P (src.length + 2) ++ turns .C (src.length + 2) →
    ∃ t, core.run ((src.length + 2) + (src.length + 2)) s = .next t ∧ t.runOver = true ∧
      t.pResponses = s.pResponses ++ [⟨.ok, src.length, []⟩] ∧
      t.cResponses = s.cResponses ++ [⟨.ok, src.length, src⟩] ∧ t.overflowCount = s.overflowCount ∧ t.contents = []
end

