-- ==== Sys2Proof/Laws/Memory.lean ====
section
/-! SUPPORT. Laws/Memory.lean: the laws of the storage: a read after a write, and that every operation over it keeps the
canonical form and the addresses inside the space. -/

namespace Sys2Proof.Machine

/-! Reading after writing. -/

theorem Memory.find_none_of_lt (a : Nat) (m : Memory) (h : ∀ x ∈ m, a < x.1) : Memory.find a m = none := by
  induction m with
  | nil => rfl
  | cons x rest ih =>
    have hx := h x (by simp)
    rw [Memory.find, if_neg (by omega)]
    exact ih fun y hy => h y (by simp [hy])

theorem Memory.find_write_same (a : Nat) (v : Byte) (m : Memory) : Memory.find a (m.write a v) = some v := by
  induction m with
  | nil => simp [Memory.write, Memory.find]
  | cons x rest ih =>
    obtain ⟨b, w⟩ := x
    rw [Memory.write]
    split
    · simp [Memory.find]
    · split
      · simp [Memory.find]
      · rw [Memory.find, if_neg (by omega), ih]

theorem Memory.find_write_other (a b : Nat) (v : Byte) (m : Memory) (h : b ≠ a) :
    Memory.find b (m.write a v) = Memory.find b m := by
  induction m with
  | nil => simp [Memory.write, Memory.find, Ne.symm h]
  | cons x rest ih =>
    obtain ⟨c, w⟩ := x
    rw [Memory.write]
    split
    · rw [Memory.find, if_neg (Ne.symm h)]
    · split
      · rw [Memory.find, if_neg (Ne.symm h), Memory.find, if_neg (by omega)]
      · simp only [Memory.find, ih]

/-- A byte read after a write (R29): the byte written at its own address, what was there elsewhere. -/
theorem Memory.byteAt_write (a b : Nat) (v : Byte) (m : Memory) :
    Memory.byteAt (m.write a v) b = if b = a then v else m.byteAt b := by
  unfold Memory.byteAt
  split
  · next h => rw [h, Memory.find_write_same]; rfl
  · next h => rw [Memory.find_write_other _ _ _ _ h]

/-! The canonical form. -/

theorem Memory.mem_write {a : Nat} {v : Byte} {m : Memory} {x : Host.Cell} (h : x ∈ m.write a v) :
    x = (a, v) ∨ x ∈ m := by
  induction m with
  | nil => simpa [Memory.write] using h
  | cons y rest ih =>
    obtain ⟨b, w⟩ := y
    rw [Memory.write] at h
    split at h
    · simpa using h
    · split at h
      · rcases List.mem_cons.1 h with h | h
        · exact .inl h
        · exact .inr (by simp [h])
      · rcases List.mem_cons.1 h with h | h
        · exact .inr (by simp [h])
        · rcases ih h with h | h
          · exact .inl h
          · exact .inr (by simp [h])

theorem Memory.write_wf (a : Nat) (v : Byte) (m : Memory) (h : m.wf) : (m.write a v).wf := by
  induction m with
  | nil => simp [Memory.write, Memory.wf]
  | cons y rest ih =>
    obtain ⟨b, w⟩ := y
    have hb : ∀ x ∈ rest, b < x.1 := (List.pairwise_cons.1 h).1
    have hr : Memory.wf rest := (List.pairwise_cons.1 h).2
    rw [Memory.write]
    split
    · next hlt =>
      refine List.pairwise_cons.2 ⟨?_, h⟩
      intro x hx
      rcases List.mem_cons.1 hx with hx | hx
      · simpa [hx] using hlt
      · exact lt_trans hlt (hb x hx)
    · split
      · next heq => exact List.pairwise_cons.2 ⟨fun x hx => heq ▸ hb x hx, hr⟩
      · next hlt hne =>
        refine List.pairwise_cons.2 ⟨?_, ih hr⟩
        intro x hx
        rcases Memory.mem_write hx with hx | hx
        · rw [hx]; show b < a; omega
        · exact hb x hx

/-- A property of memories that every enabled single-byte write keeps, a word write keeps (R39). -/
theorem wordWrite_induction {motive : Memory → Prop} (lanes : Lanes) (w : WordWrite)
    (step : ∀ m x, x ∈ w.wdata.zipIdx → w.be.testBit x.2 = true → motive m →
      motive (m.write (w.wa * lanes.bytes + x.2) x.1))
    (m : Memory) (h : motive m) : motive (wordWrite lanes m w) := by
  unfold wordWrite
  generalize hl : w.wdata.zipIdx = l at step
  clear hl
  induction l generalizing m with
  | nil => exact h
  | cons x rest ih =>
    rw [List.foldl_cons]
    refine ih _ ?_ (fun m y hy => step m y (by simp [hy]))
    split
    · next hb => exact step m x (by simp) hb h
    · exact h

theorem wordWrite_wf (lanes : Lanes) (m : Memory) (w : WordWrite) (h : m.wf) : (wordWrite lanes m w).wf :=
  wordWrite_induction lanes w (fun m _ _ _ hm => Memory.write_wf _ _ m hm) m h

/-- Every storage operation of the machine keeps the canonical form. -/
theorem State.memWrite_wf {s t : State} {a : Nat} {v : Byte} (h : s.memWrite a v = .ok t) (hm : s.storage.wf) :
    t.storage.wf := by
  unfold State.memWrite at h
  split at h
  · cases h; exact wordWrite_wf _ _ _ hm
  · cases h

/-- The reset state's storage has the canonical form. -/
theorem State.reset_storage_wf : State.reset.storage.wf := List.Pairwise.nil

end Sys2Proof.Machine
end

