-- ==== Sys2Proof/Laws/State.lean ====
section
/-! SUPPORT. Laws/State.lean: one lemma per field per update of State, so that no later proof unfolds a record update. -/

namespace Sys2Proof.Machine

/-! `respond`: the issuing port's log grows by the response; nothing else changes (R56). -/

@[simp] theorem State.respond_cfg (s : State) (p : Port) (st : Status) (v : Nat) (bs : List Byte) :
    (s.respond p st v bs).cfg = s.cfg := by cases p <;> rfl
@[simp] theorem State.respond_active (s : State) (p : Port) (st : Status) (v : Nat) (bs : List Byte) :
    (s.respond p st v bs).active = s.active := by cases p <;> rfl
@[simp] theorem State.respond_writeIndex (s : State) (p : Port) (st : Status) (v : Nat) (bs : List Byte) :
    (s.respond p st v bs).writeIndex = s.writeIndex := by cases p <;> rfl
@[simp] theorem State.respond_readIndex (s : State) (p : Port) (st : Status) (v : Nat) (bs : List Byte) :
    (s.respond p st v bs).readIndex = s.readIndex := by cases p <;> rfl
@[simp] theorem State.respond_overflowCount (s : State) (p : Port) (st : Status) (v : Nat) (bs : List Byte) :
    (s.respond p st v bs).overflowCount = s.overflowCount := by cases p <;> rfl
@[simp] theorem State.respond_capacitySlots (s : State) (p : Port) (st : Status) (v : Nat) (bs : List Byte) :
    (s.respond p st v bs).capacitySlots = s.capacitySlots := by cases p <;> rfl
@[simp] theorem State.respond_storageBase (s : State) (p : Port) (st : Status) (v : Nat) (bs : List Byte) :
    (s.respond p st v bs).storageBase = s.storageBase := by cases p <;> rfl
@[simp] theorem State.respond_portP (s : State) (p : Port) (st : Status) (v : Nat) (bs : List Byte) :
    (s.respond p st v bs).portP = s.portP := by cases p <;> rfl
@[simp] theorem State.respond_portC (s : State) (p : Port) (st : Status) (v : Nat) (bs : List Byte) :
    (s.respond p st v bs).portC = s.portC := by cases p <;> rfl
@[simp] theorem State.respond_storage (s : State) (p : Port) (st : Status) (v : Nat) (bs : List Byte) :
    (s.respond p st v bs).storage = s.storage := by cases p <;> rfl
@[simp] theorem State.respond_pCommands (s : State) (p : Port) (st : Status) (v : Nat) (bs : List Byte) :
    (s.respond p st v bs).pCommands = s.pCommands := by cases p <;> rfl
@[simp] theorem State.respond_cCommands (s : State) (p : Port) (st : Status) (v : Nat) (bs : List Byte) :
    (s.respond p st v bs).cCommands = s.cCommands := by cases p <;> rfl
@[simp] theorem State.respond_schedule (s : State) (p : Port) (st : Status) (v : Nat) (bs : List Byte) :
    (s.respond p st v bs).schedule = s.schedule := by cases p <;> rfl
@[simp] theorem State.respond_choices (s : State) (p : Port) (st : Status) (v : Nat) (bs : List Byte) :
    (s.respond p st v bs).choices = s.choices := by cases p <;> rfl
@[simp] theorem State.respond_observations (s : State) (p : Port) (st : Status) (v : Nat) (bs : List Byte) :
    (s.respond p st v bs).observations = s.observations := by cases p <;> rfl
@[simp] theorem State.respond_responses (s : State) (p q : Port) (st : Status) (v : Nat) (bs : List Byte) :
    (s.respond p st v bs).responses q = if q = p then s.responses q ++ [⟨st, v, bs⟩] else s.responses q := by
  cases p <;> cases q <;> rfl

/-! `withCommands`. -/

@[simp] theorem State.withCommands_cfg (s : State) (p : Port) (cs : List Command) :
    (s.withCommands p cs).cfg = s.cfg := by cases p <;> rfl
@[simp] theorem State.withCommands_active (s : State) (p : Port) (cs : List Command) :
    (s.withCommands p cs).active = s.active := by cases p <;> rfl
@[simp] theorem State.withCommands_writeIndex (s : State) (p : Port) (cs : List Command) :
    (s.withCommands p cs).writeIndex = s.writeIndex := by cases p <;> rfl
@[simp] theorem State.withCommands_readIndex (s : State) (p : Port) (cs : List Command) :
    (s.withCommands p cs).readIndex = s.readIndex := by cases p <;> rfl
@[simp] theorem State.withCommands_overflowCount (s : State) (p : Port) (cs : List Command) :
    (s.withCommands p cs).overflowCount = s.overflowCount := by cases p <;> rfl
@[simp] theorem State.withCommands_capacitySlots (s : State) (p : Port) (cs : List Command) :
    (s.withCommands p cs).capacitySlots = s.capacitySlots := by cases p <;> rfl
@[simp] theorem State.withCommands_storageBase (s : State) (p : Port) (cs : List Command) :
    (s.withCommands p cs).storageBase = s.storageBase := by cases p <;> rfl
@[simp] theorem State.withCommands_portP (s : State) (p : Port) (cs : List Command) :
    (s.withCommands p cs).portP = s.portP := by cases p <;> rfl
@[simp] theorem State.withCommands_portC (s : State) (p : Port) (cs : List Command) :
    (s.withCommands p cs).portC = s.portC := by cases p <;> rfl
@[simp] theorem State.withCommands_storage (s : State) (p : Port) (cs : List Command) :
    (s.withCommands p cs).storage = s.storage := by cases p <;> rfl
@[simp] theorem State.withCommands_schedule (s : State) (p : Port) (cs : List Command) :
    (s.withCommands p cs).schedule = s.schedule := by cases p <;> rfl
@[simp] theorem State.withCommands_choices (s : State) (p : Port) (cs : List Command) :
    (s.withCommands p cs).choices = s.choices := by cases p <;> rfl
@[simp] theorem State.withCommands_pResponses (s : State) (p : Port) (cs : List Command) :
    (s.withCommands p cs).pResponses = s.pResponses := by cases p <;> rfl
@[simp] theorem State.withCommands_cResponses (s : State) (p : Port) (cs : List Command) :
    (s.withCommands p cs).cResponses = s.cResponses := by cases p <;> rfl
@[simp] theorem State.withCommands_observations (s : State) (p : Port) (cs : List Command) :
    (s.withCommands p cs).observations = s.observations := by cases p <;> rfl
@[simp] theorem State.withCommands_commands (s : State) (p q : Port) (cs : List Command) :
    (s.withCommands p cs).commands q = if q = p then cs else s.commands q := by
  cases p <;> cases q <;> rfl

/-! `bindRegion` (R65). -/

@[simp] theorem State.bindRegion_cfg (s : State) (base cap : Nat) :
    (s.bindRegion base cap).cfg = s.cfg := rfl
@[simp] theorem State.bindRegion_active (s : State) (base cap : Nat) :
    (s.bindRegion base cap).active = true := rfl
@[simp] theorem State.bindRegion_writeIndex (s : State) (base cap : Nat) :
    (s.bindRegion base cap).writeIndex = 0 := rfl
@[simp] theorem State.bindRegion_readIndex (s : State) (base cap : Nat) :
    (s.bindRegion base cap).readIndex = 0 := rfl
@[simp] theorem State.bindRegion_overflowCount (s : State) (base cap : Nat) :
    (s.bindRegion base cap).overflowCount = 0 := rfl
@[simp] theorem State.bindRegion_capacitySlots (s : State) (base cap : Nat) :
    (s.bindRegion base cap).capacitySlots = cap := rfl
@[simp] theorem State.bindRegion_storageBase (s : State) (base cap : Nat) :
    (s.bindRegion base cap).storageBase = base := rfl
@[simp] theorem State.bindRegion_portP (s : State) (base cap : Nat) :
    (s.bindRegion base cap).portP = s.portP := rfl
@[simp] theorem State.bindRegion_portC (s : State) (base cap : Nat) :
    (s.bindRegion base cap).portC = s.portC := rfl
@[simp] theorem State.bindRegion_storage (s : State) (base cap : Nat) :
    (s.bindRegion base cap).storage = s.storage := rfl
@[simp] theorem State.bindRegion_pCommands (s : State) (base cap : Nat) :
    (s.bindRegion base cap).pCommands = s.pCommands := rfl
@[simp] theorem State.bindRegion_cCommands (s : State) (base cap : Nat) :
    (s.bindRegion base cap).cCommands = s.cCommands := rfl
@[simp] theorem State.bindRegion_schedule (s : State) (base cap : Nat) :
    (s.bindRegion base cap).schedule = s.schedule := rfl
@[simp] theorem State.bindRegion_choices (s : State) (base cap : Nat) :
    (s.bindRegion base cap).choices = s.choices := rfl
@[simp] theorem State.bindRegion_pResponses (s : State) (base cap : Nat) :
    (s.bindRegion base cap).pResponses = s.pResponses := rfl
@[simp] theorem State.bindRegion_cResponses (s : State) (base cap : Nat) :
    (s.bindRegion base cap).cResponses = s.cResponses := rfl
@[simp] theorem State.bindRegion_observations (s : State) (base cap : Nat) :
    (s.bindRegion base cap).observations = s.observations := rfl

/-! `zeroIndices` (R68). -/

@[simp] theorem State.zeroIndices_cfg (s : State) :
    (s.zeroIndices).cfg = s.cfg := rfl
@[simp] theorem State.zeroIndices_active (s : State) :
    (s.zeroIndices).active = s.active := rfl
@[simp] theorem State.zeroIndices_writeIndex (s : State) :
    (s.zeroIndices).writeIndex = 0 := rfl
@[simp] theorem State.zeroIndices_readIndex (s : State) :
    (s.zeroIndices).readIndex = 0 := rfl
@[simp] theorem State.zeroIndices_overflowCount (s : State) :
    (s.zeroIndices).overflowCount = 0 := rfl
@[simp] theorem State.zeroIndices_capacitySlots (s : State) :
    (s.zeroIndices).capacitySlots = s.capacitySlots := rfl
@[simp] theorem State.zeroIndices_storageBase (s : State) :
    (s.zeroIndices).storageBase = s.storageBase := rfl
@[simp] theorem State.zeroIndices_portP (s : State) :
    (s.zeroIndices).portP = s.portP := rfl
@[simp] theorem State.zeroIndices_portC (s : State) :
    (s.zeroIndices).portC = s.portC := rfl
@[simp] theorem State.zeroIndices_storage (s : State) :
    (s.zeroIndices).storage = s.storage := rfl
@[simp] theorem State.zeroIndices_pCommands (s : State) :
    (s.zeroIndices).pCommands = s.pCommands := rfl
@[simp] theorem State.zeroIndices_cCommands (s : State) :
    (s.zeroIndices).cCommands = s.cCommands := rfl
@[simp] theorem State.zeroIndices_schedule (s : State) :
    (s.zeroIndices).schedule = s.schedule := rfl
@[simp] theorem State.zeroIndices_choices (s : State) :
    (s.zeroIndices).choices = s.choices := rfl
@[simp] theorem State.zeroIndices_pResponses (s : State) :
    (s.zeroIndices).pResponses = s.pResponses := rfl
@[simp] theorem State.zeroIndices_cResponses (s : State) :
    (s.zeroIndices).cResponses = s.cResponses := rfl
@[simp] theorem State.zeroIndices_observations (s : State) :
    (s.zeroIndices).observations = s.observations := rfl

/-! `hostReset` (R107). -/

@[simp] theorem State.hostReset_cfg (s : State) :
    (s.hostReset).cfg = s.cfg := rfl
@[simp] theorem State.hostReset_active (s : State) :
    (s.hostReset).active = false := rfl
@[simp] theorem State.hostReset_writeIndex (s : State) :
    (s.hostReset).writeIndex = 0 := rfl
@[simp] theorem State.hostReset_readIndex (s : State) :
    (s.hostReset).readIndex = 0 := rfl
@[simp] theorem State.hostReset_overflowCount (s : State) :
    (s.hostReset).overflowCount = 0 := rfl
@[simp] theorem State.hostReset_capacitySlots (s : State) :
    (s.hostReset).capacitySlots = 0 := rfl
@[simp] theorem State.hostReset_storageBase (s : State) :
    (s.hostReset).storageBase = 0 := rfl
@[simp] theorem State.hostReset_portP (s : State) :
    (s.hostReset).portP = .idle := rfl
@[simp] theorem State.hostReset_portC (s : State) :
    (s.hostReset).portC = .idle := rfl
@[simp] theorem State.hostReset_storage (s : State) :
    (s.hostReset).storage = s.storage := rfl
@[simp] theorem State.hostReset_pCommands (s : State) :
    (s.hostReset).pCommands = s.pCommands := rfl
@[simp] theorem State.hostReset_cCommands (s : State) :
    (s.hostReset).cCommands = s.cCommands := rfl
@[simp] theorem State.hostReset_schedule (s : State) :
    (s.hostReset).schedule = s.schedule := rfl
@[simp] theorem State.hostReset_choices (s : State) :
    (s.hostReset).choices = s.choices := rfl
@[simp] theorem State.hostReset_pResponses (s : State) :
    (s.hostReset).pResponses = s.pResponses := rfl
@[simp] theorem State.hostReset_cResponses (s : State) :
    (s.hostReset).cResponses = s.cResponses := rfl
@[simp] theorem State.hostReset_observations (s : State) :
    (s.hostReset).observations = s.observations := rfl

/-! `observe` (R21). -/

@[simp] theorem State.observe_cfg (s : State) (g : Port) :
    (s.observe g).cfg = s.cfg := rfl
@[simp] theorem State.observe_active (s : State) (g : Port) :
    (s.observe g).active = s.active := rfl
@[simp] theorem State.observe_writeIndex (s : State) (g : Port) :
    (s.observe g).writeIndex = s.writeIndex := rfl
@[simp] theorem State.observe_readIndex (s : State) (g : Port) :
    (s.observe g).readIndex = s.readIndex := rfl
@[simp] theorem State.observe_overflowCount (s : State) (g : Port) :
    (s.observe g).overflowCount = s.overflowCount := rfl
@[simp] theorem State.observe_capacitySlots (s : State) (g : Port) :
    (s.observe g).capacitySlots = s.capacitySlots := rfl
@[simp] theorem State.observe_storageBase (s : State) (g : Port) :
    (s.observe g).storageBase = s.storageBase := rfl
@[simp] theorem State.observe_portP (s : State) (g : Port) :
    (s.observe g).portP = s.portP := rfl
@[simp] theorem State.observe_portC (s : State) (g : Port) :
    (s.observe g).portC = s.portC := rfl
@[simp] theorem State.observe_storage (s : State) (g : Port) :
    (s.observe g).storage = s.storage := rfl
@[simp] theorem State.observe_pCommands (s : State) (g : Port) :
    (s.observe g).pCommands = s.pCommands := rfl
@[simp] theorem State.observe_cCommands (s : State) (g : Port) :
    (s.observe g).cCommands = s.cCommands := rfl
@[simp] theorem State.observe_schedule (s : State) (g : Port) :
    (s.observe g).schedule = s.schedule := rfl
@[simp] theorem State.observe_choices (s : State) (g : Port) :
    (s.observe g).choices = s.choices := rfl
@[simp] theorem State.observe_pResponses (s : State) (g : Port) :
    (s.observe g).pResponses = s.pResponses := rfl
@[simp] theorem State.observe_cResponses (s : State) (g : Port) :
    (s.observe g).cResponses = s.cResponses := rfl
@[simp] theorem State.observe_observations (s : State) (g : Port) :
    (s.observe g).observations = s.observations ++ [⟨g, s.statusOutputs⟩] := rfl

/-! `beginWrite` and `beginRead` (R79, R86). -/

@[simp] theorem State.beginWrite_cfg (s : State) (n : Nat) (src : List Byte) :
    (s.beginWrite n src).cfg = s.cfg := rfl
@[simp] theorem State.beginWrite_active (s : State) (n : Nat) (src : List Byte) :
    (s.beginWrite n src).active = s.active := rfl
@[simp] theorem State.beginWrite_writeIndex (s : State) (n : Nat) (src : List Byte) :
    (s.beginWrite n src).writeIndex = s.writeIndex := rfl
@[simp] theorem State.beginWrite_readIndex (s : State) (n : Nat) (src : List Byte) :
    (s.beginWrite n src).readIndex = s.readIndex := rfl
@[simp] theorem State.beginWrite_overflowCount (s : State) (n : Nat) (src : List Byte) :
    (s.beginWrite n src).overflowCount = s.overflowCount := rfl
@[simp] theorem State.beginWrite_capacitySlots (s : State) (n : Nat) (src : List Byte) :
    (s.beginWrite n src).capacitySlots = s.capacitySlots := rfl
@[simp] theorem State.beginWrite_storageBase (s : State) (n : Nat) (src : List Byte) :
    (s.beginWrite n src).storageBase = s.storageBase := rfl
@[simp] theorem State.beginWrite_portC (s : State) (n : Nat) (src : List Byte) :
    (s.beginWrite n src).portC = s.portC := rfl
@[simp] theorem State.beginWrite_storage (s : State) (n : Nat) (src : List Byte) :
    (s.beginWrite n src).storage = s.storage := rfl
@[simp] theorem State.beginWrite_pCommands (s : State) (n : Nat) (src : List Byte) :
    (s.beginWrite n src).pCommands = s.pCommands := rfl
@[simp] theorem State.beginWrite_cCommands (s : State) (n : Nat) (src : List Byte) :
    (s.beginWrite n src).cCommands = s.cCommands := rfl
@[simp] theorem State.beginWrite_schedule (s : State) (n : Nat) (src : List Byte) :
    (s.beginWrite n src).schedule = s.schedule := rfl
@[simp] theorem State.beginWrite_choices (s : State) (n : Nat) (src : List Byte) :
    (s.beginWrite n src).choices = s.choices := rfl
@[simp] theorem State.beginWrite_pResponses (s : State) (n : Nat) (src : List Byte) :
    (s.beginWrite n src).pResponses = s.pResponses := rfl
@[simp] theorem State.beginWrite_cResponses (s : State) (n : Nat) (src : List Byte) :
    (s.beginWrite n src).cResponses = s.cResponses := rfl
@[simp] theorem State.beginWrite_observations (s : State) (n : Nat) (src : List Byte) :
    (s.beginWrite n src).observations = s.observations := rfl
theorem State.beginWrite_portP (s : State) (n : Nat) (src : List Byte) :
    (s.beginWrite n src).portP =
      if 0 < min n s.spaceCount then .copy (s.sampleWrite n src) else .publish (s.sampleWrite n src) := rfl
@[simp] theorem State.beginRead_cfg (s : State) (n : Nat) :
    (s.beginRead n).cfg = s.cfg := rfl
@[simp] theorem State.beginRead_active (s : State) (n : Nat) :
    (s.beginRead n).active = s.active := rfl
@[simp] theorem State.beginRead_writeIndex (s : State) (n : Nat) :
    (s.beginRead n).writeIndex = s.writeIndex := rfl
@[simp] theorem State.beginRead_readIndex (s : State) (n : Nat) :
    (s.beginRead n).readIndex = s.readIndex := rfl
@[simp] theorem State.beginRead_overflowCount (s : State) (n : Nat) :
    (s.beginRead n).overflowCount = s.overflowCount := rfl
@[simp] theorem State.beginRead_capacitySlots (s : State) (n : Nat) :
    (s.beginRead n).capacitySlots = s.capacitySlots := rfl
@[simp] theorem State.beginRead_storageBase (s : State) (n : Nat) :
    (s.beginRead n).storageBase = s.storageBase := rfl
@[simp] theorem State.beginRead_portP (s : State) (n : Nat) :
    (s.beginRead n).portP = s.portP := rfl
@[simp] theorem State.beginRead_portC (s : State) (n : Nat) :
    (s.beginRead n).portC = .copy (s.sampleRead n) := rfl
@[simp] theorem State.beginRead_storage (s : State) (n : Nat) :
    (s.beginRead n).storage = s.storage := rfl
@[simp] theorem State.beginRead_pCommands (s : State) (n : Nat) :
    (s.beginRead n).pCommands = s.pCommands := rfl
@[simp] theorem State.beginRead_cCommands (s : State) (n : Nat) :
    (s.beginRead n).cCommands = s.cCommands := rfl
@[simp] theorem State.beginRead_schedule (s : State) (n : Nat) :
    (s.beginRead n).schedule = s.schedule := rfl
@[simp] theorem State.beginRead_choices (s : State) (n : Nat) :
    (s.beginRead n).choices = s.choices := rfl
@[simp] theorem State.beginRead_pResponses (s : State) (n : Nat) :
    (s.beginRead n).pResponses = s.pResponses := rfl
@[simp] theorem State.beginRead_cResponses (s : State) (n : Nat) :
    (s.beginRead n).cResponses = s.cResponses := rfl
@[simp] theorem State.beginRead_observations (s : State) (n : Nat) :
    (s.beginRead n).observations = s.observations := rfl

/-! The ports' states through the accessors. -/

@[simp] theorem State.respond_portIdle (s : State) (p q : Port) (st : Status) (v : Nat) (bs : List Byte) :
    (s.respond p st v bs).portIdle q = s.portIdle q := by cases p <;> cases q <;> rfl
@[simp] theorem State.withCommands_portIdle (s : State) (p q : Port) (cs : List Command) :
    (s.withCommands p cs).portIdle q = s.portIdle q := by cases p <;> cases q <;> rfl
@[simp] theorem State.respond_commands (s : State) (p q : Port) (st : Status) (v : Nat) (bs : List Byte) :
    (s.respond p st v bs).commands q = s.commands q := by cases p <;> cases q <;> rfl
@[simp] theorem State.withCommands_responses (s : State) (p q : Port) (cs : List Command) :
    (s.withCommands p cs).responses q = s.responses q := by cases p <;> cases q <;> rfl
@[simp] theorem State.respond_dataCount (s : State) (p : Port) (st : Status) (v : Nat) (bs : List Byte) :
    (s.respond p st v bs).dataCount = s.dataCount := by cases p <;> rfl
@[simp] theorem State.respond_spaceCount (s : State) (p : Port) (st : Status) (v : Nat) (bs : List Byte) :
    (s.respond p st v bs).spaceCount = s.spaceCount := by cases p <;> rfl
@[simp] theorem State.withCommands_dataCount (s : State) (p : Port) (cs : List Command) :
    (s.withCommands p cs).dataCount = s.dataCount := by cases p <;> rfl
@[simp] theorem State.withCommands_spaceCount (s : State) (p : Port) (cs : List Command) :
    (s.withCommands p cs).spaceCount = s.spaceCount := by cases p <;> rfl

theorem State.portIdle_P (s : State) : s.portIdle .P = true ↔ s.portP = .idle := by
  cases h : s.portP <;> simp [State.portIdle, WriteSeq.phase, h]
theorem State.portIdle_C (s : State) : s.portIdle .C = true ↔ s.portC = .idle := by
  cases h : s.portC <;> simp [State.portIdle, ReadSeq.phase, h]

end Sys2Proof.Machine
end

