-- ==== Sys2Proof/Laws/Ops.lean ====
section
/-! SUPPORT. Laws/Ops.lean: what each shared operation can do, said once: if it answers a next state, then which. -/

namespace Sys2Proof.Machine

/-! The guards that several meanings share. -/

theorem State.accept_next {s t : State} {p : Port} {body : Host.Outcome State Fault Refusal}
    (h : s.accept p body = .next t) : s.portIdle p = true ∧ body = .next t := by
  unfold State.accept at h
  split at h
  · next hp => exact ⟨hp, h⟩
  · cases h

theorem State.accept_of_idle {s : State} {p : Port} (body : Host.Outcome State Fault Refusal)
    (h : s.portIdle p = true) : s.accept p body = body := by simp [State.accept, h]

theorem State.accept_of_busy {s : State} {p : Port} (body : Host.Outcome State Fault Refusal)
    (h : s.portIdle p = false) : s.accept p body = .fault .portBusy := by simp [State.accept, h]

theorem State.whenPeerIdle_next {s t : State} {p : Port} {body : Host.Outcome State Fault Refusal}
    (h : s.whenPeerIdle p body = .next t) : s.portIdle p.peer = true ∧ body = .next t := by
  unfold State.whenPeerIdle at h
  split at h
  · next hp => exact ⟨hp, h⟩
  · cases h

theorem State.whenPeerIdle_of_idle {s : State} {p : Port} (body : Host.Outcome State Fault Refusal)
    (h : s.portIdle p.peer = true) : s.whenPeerIdle p body = body := by simp [State.whenPeerIdle, h]

theorem State.whenActive_next {s t : State} {p : Port} {body : Host.Outcome State Fault Refusal}
    (h : s.whenActive p body = .next t) :
    (s.active = true ∧ body = .next t) ∨ (s.active = false ∧ t = s.respond p .notActive 0 []) := by
  unfold State.whenActive at h
  split at h
  · next ha => exact .inl ⟨ha, h⟩
  · next ha => cases h; exact .inr ⟨by simpa using ha, rfl⟩

theorem State.whenActive_of_active {s : State} {p : Port} (body : Host.Outcome State Fault Refusal)
    (h : s.active = true) : s.whenActive p body = body := by simp [State.whenActive, h]

theorem validConfig_iff (c : Config) (base cap : Nat) :
    validConfig c base cap = true ↔ 2 ≤ cap ∧ cap ≤ c.cbMaxSize ∧ base + cap ≤ c.storageBytes := by
  simp [validConfig, and_assoc]

/-! Storage accesses. -/

theorem State.memRead_ok {s : State} {a : Nat} {v : Byte} (h : s.memRead a = .ok v) :
    a < s.cfg.storageBytes ∧ v = muxRead s.cfg.lanes s.storage a := by
  unfold State.memRead at h
  split at h
  · next ha => cases h; exact ⟨ha, rfl⟩
  · cases h

theorem State.memWrite_ok {s t : State} {a : Nat} {v : Byte} (h : s.memWrite a v = .ok t) :
    a < s.cfg.storageBytes ∧
      t = { s with storage := wordWrite s.cfg.lanes s.storage (muxWrite s.cfg.lanes a v) } := by
  unfold State.memWrite at h
  split at h
  · next ha => cases h; exact ⟨ha, rfl⟩
  · cases h

theorem WriteFlight.byte_ok {f : WriteFlight} {v : Byte} : f.byte = .ok v ↔ f.src[f.i]? = some v := by
  unfold WriteFlight.byte
  split
  · next w hw => simp [hw]
  · next hw => simp [hw]

/-! The steps of a transfer in flight. -/

theorem writeCopy_next {f : WriteFlight} {s t : State} (h : writeCopy f s = .next t) :
    ∃ v, f.src[f.i]? = some v ∧ s.writeAddress f < s.cfg.storageBytes ∧
      t = { s with
        storage := wordWrite s.cfg.lanes s.storage (muxWrite s.cfg.lanes (s.writeAddress f) v)
        portP := if f.i + 1 = f.k then .publish { f with i := f.i + 1 } else .copy { f with i := f.i + 1 } } := by
  unfold writeCopy at h
  split at h
  · cases h
  · next v hv =>
    split at h
    · cases h
    · next u hu =>
      obtain ⟨ha, rfl⟩ := State.memWrite_ok hu
      cases h
      exact ⟨v, WriteFlight.byte_ok.1 hv, ha, rfl⟩

theorem readCopy_next {f : ReadFlight} {s t : State} (h : readCopy f s = .next t) :
    s.readAddress f < s.cfg.storageBytes ∧
      t = { s with
        portC :=
          if f.i + 1 = f.k then
            .publish { f with i := f.i + 1, dst := f.dst ++ [muxRead s.cfg.lanes s.storage (s.readAddress f)] }
          else .copy { f with i := f.i + 1, dst := f.dst ++ [muxRead s.cfg.lanes s.storage (s.readAddress f)] } } := by
  unfold readCopy at h
  split at h
  · cases h
  · next v hv =>
    obtain ⟨ha, rfl⟩ := State.memRead_ok hv
    cases h
    exact ⟨ha, rfl⟩

/-! Which event comes next. -/

/-- What choosing the next event can do: it takes the schedule's first, or, with none listed, gives a port that has a
step its turn; it changes nothing but the schedule and the count of free choices. -/
theorem State.nextEvent_some {s t : State} {e : Event} (h : s.nextEvent = some (e, t)) :
    (∃ rest, s.schedule = e :: rest ∧ t = { s with schedule := rest }) ∨
    (s.schedule = [] ∧ ∃ p, e = .turn p ∧ s.enabled p = true ∧ (t = s ∨ t = { s with choices := s.choices + 1 })) := by
  unfold State.nextEvent at h
  split at h
  · next e' rest hs => cases h; exact .inl ⟨rest, hs, rfl⟩
  · next hs =>
    refine .inr ⟨hs, ?_⟩
    split at h
    · cases h
    · next hp _ => cases h; exact ⟨.P, rfl, hp, .inl rfl⟩
    · next _ hc => cases h; exact ⟨.C, rfl, hc, .inl rfl⟩
    · next hp hc =>
      cases h
      refine ⟨_, rfl, ?_, .inr rfl⟩
      cases Config.freeTurn s.choices
      · exact hp
      · exact hc

/-- What taking up a command can do: with none to issue nothing; else the first one decodes and its meaning answers. -/
theorem issueNext_next {p : Port} {s t : State} (h : issueNext p s = .next t) :
    (s.commands p = [] ∧ t = s) ∨
    ∃ cmd rest i, s.commands p = cmd :: rest ∧ decode s.cfg p cmd = .ok i ∧ exec i (s.withCommands p rest) = .next t := by
  unfold issueNext at h
  split at h
  · next hc => cases h; exact .inl ⟨hc, rfl⟩
  · next cmd rest hc =>
    split at h
    · next i hi => exact .inr ⟨cmd, rest, i, hc, hi, h⟩
    · cases h

/-! What the meaning of each command can do. -/

theorem execInit_next {p : Port} {a b : Nat} {s t : State} (h : exec (.init p a b) s = .next t) :
    s.portIdle p = true ∧ s.portIdle p.peer = true ∧
      ((validConfig s.cfg b a = true ∧ t = (s.bindRegion b a).respond p .ok 0 []) ∨
       (validConfig s.cfg b a = false ∧ t = s.respond p .invalidConfiguration 0 [])) := by
  obtain ⟨hi, h⟩ := State.accept_next h
  obtain ⟨hp, h⟩ := State.whenPeerIdle_next h
  refine ⟨hi, hp, ?_⟩
  split at h
  · next hv => cases h; exact .inl ⟨hv, rfl⟩
  · next hv => cases h; exact .inr ⟨by simpa using hv, rfl⟩

theorem execClear_next {p : Port} {a b : Nat} {s t : State} (h : exec (.clear p a b) s = .next t) :
    s.portIdle p = true ∧ s.portIdle p.peer = true ∧
      ((s.active = true ∧ t = s.zeroIndices.respond p .ok 0 []) ∨
       (s.active = false ∧ t = s.respond p .notActive 0 [])) := by
  obtain ⟨hi, h⟩ := State.accept_next h
  obtain ⟨hp, h⟩ := State.whenPeerIdle_next h
  refine ⟨hi, hp, (State.whenActive_next h).imp (fun ⟨ha, h⟩ => ⟨ha, ?_⟩) id⟩
  cases h; rfl

theorem execDataCount_next {p : Port} {a b : Nat} {s t : State} (h : exec (.dataCount p a b) s = .next t) :
    s.portIdle p = true ∧
      ((s.active = true ∧ t = s.respond p .ok s.dataCount []) ∨
       (s.active = false ∧ t = s.respond p .notActive 0 [])) := by
  obtain ⟨hi, h⟩ := State.accept_next h
  refine ⟨hi, (State.whenActive_next h).imp (fun ⟨ha, h⟩ => ⟨ha, ?_⟩) id⟩
  cases h; rfl

theorem execSpaceCount_next {p : Port} {a b : Nat} {s t : State} (h : exec (.spaceCount p a b) s = .next t) :
    s.portIdle p = true ∧
      ((s.active = true ∧ t = s.respond p .ok s.spaceCount []) ∨
       (s.active = false ∧ t = s.respond p .notActive 0 [])) := by
  obtain ⟨hi, h⟩ := State.accept_next h
  refine ⟨hi, (State.whenActive_next h).imp (fun ⟨ha, h⟩ => ⟨ha, ?_⟩) id⟩
  cases h; rfl

theorem execWrite_next {p : Port} {n b : Nat} {src : List Byte} {s t : State} (h : exec (.write p n b src) s = .next t) :
    s.portIdle p = true ∧
      ((p = .C ∧ t = s.respond .C .illegalCommand 0 []) ∨
       (p = .P ∧ s.active = false ∧ t = s.respond .P .notActive 0 []) ∨
       (p = .P ∧ s.active = true ∧ n = 0 ∧ t = s.respond .P .ok 0 []) ∨
       (p = .P ∧ s.active = true ∧ n ≠ 0 ∧ t = s.beginWrite n src)) := by
  obtain ⟨hi, h⟩ := State.accept_next h
  refine ⟨hi, ?_⟩
  cases p with
  | C => cases h; exact .inl ⟨rfl, rfl⟩
  | P =>
    rcases State.whenActive_next h with ⟨ha, h⟩ | ⟨ha, h⟩
    · split at h
      · next hn => cases h; exact .inr (.inr (.inl ⟨rfl, ha, hn, rfl⟩))
      · next hn => cases h; exact .inr (.inr (.inr ⟨rfl, ha, hn, rfl⟩))
    · exact .inr (.inl ⟨rfl, ha, h⟩)

theorem execRead_next {p : Port} {n b : Nat} {s t : State} (h : exec (.read p n b) s = .next t) :
    s.portIdle p = true ∧
      ((p = .P ∧ t = s.respond .P .illegalCommand 0 []) ∨
       (p = .C ∧ s.active = false ∧ t = s.respond .C .notActive 0 []) ∨
       (p = .C ∧ s.active = true ∧ (n = 0 ∨ s.dataCount = 0) ∧ t = s.respond .C .ok 0 []) ∨
       (p = .C ∧ s.active = true ∧ n ≠ 0 ∧ s.dataCount ≠ 0 ∧ t = s.beginRead n)) := by
  obtain ⟨hi, h⟩ := State.accept_next h
  refine ⟨hi, ?_⟩
  cases p with
  | P => cases h; exact .inl ⟨rfl, rfl⟩
  | C =>
    rcases State.whenActive_next h with ⟨ha, h⟩ | ⟨ha, h⟩
    · split at h
      · next hn => cases h; exact .inr (.inr (.inl ⟨rfl, ha, .inl hn, rfl⟩))
      · next hn =>
        split at h
        · next hd => cases h; exact .inr (.inr (.inl ⟨rfl, ha, .inr hd, rfl⟩))
        · next hd => cases h; exact .inr (.inr (.inr ⟨rfl, ha, hn, hd, rfl⟩))
    · exact .inr (.inl ⟨rfl, ha, h⟩)

theorem execReserved6_next {p : Port} {a b : Nat} {s t : State} (h : exec (.reserved6 p a b) s = .next t) :
    s.portIdle p = true ∧ t = s.respond p .illegalCommand 0 [] := by
  obtain ⟨hi, h⟩ := State.accept_next h
  cases h; exact ⟨hi, rfl⟩

theorem execReserved7_next {p : Port} {a b : Nat} {s t : State} (h : exec (.reserved7 p a b) s = .next t) :
    s.portIdle p = true ∧ t = s.respond p .illegalCommand 0 [] := by
  obtain ⟨hi, h⟩ := State.accept_next h
  cases h; exact ⟨hi, rfl⟩

end Sys2Proof.Machine
end

