-- ==== Sys2Proof/Laws/PerInstr.lean ====
section
/-! SUPPORT. Laws/PerInstr.lean: facts of the encoding of every instruction, said per constructor. -/

namespace Sys2Proof.Laws

/-- The fields of R53 can be read back from the encoded word: the operation code, `arg0` where it fits its `W` bits. -/
def FieldsReadBack.Statement (i : Instr) : Prop :=
  ∀ c : Config, i.WellFormed c →
    (encode c i).word % 8 = i.opcode ∧ arg0Field c (encode c i).word = i.arg0 ∧
      arg1Field c (encode c i).word = i.arg1 ∧ (encode c i).word < 2 ^ commandBits c

/-- The arithmetic of R53: three fields laid side by side are read back, and the word has `3 + W + A` bits. -/
theorem FieldsReadBack.layout (W A op a b : Nat) (hop : op < 8) (ha : a < 2 ^ W) (hb : b < 2 ^ A) :
    (op + a * 2 ^ 3 + b * 2 ^ (W + 3)) % 8 = op ∧
    (op + a * 2 ^ 3 + b * 2 ^ (W + 3)) / 2 ^ 3 % 2 ^ W = a ∧
    (op + a * 2 ^ 3 + b * 2 ^ (W + 3)) / 2 ^ (W + 3) % 2 ^ A = b ∧
    op + a * 2 ^ 3 + b * 2 ^ (W + 3) < 2 ^ (3 + W + A) := by
  have e : 2 ^ (W + 3) = 8 * 2 ^ W := by rw [pow_add]; ring
  have hpos : 0 < 2 ^ W := Nat.two_pow_pos W
  have r : op + a * 2 ^ 3 + b * 2 ^ (W + 3) = op + 8 * (a + 2 ^ W * b) := by rw [e]; ring
  have q : (op + 8 * (a + 2 ^ W * b)) / 8 = a + 2 ^ W * b := by omega
  have hlow : op + 8 * a < 8 * 2 ^ W := by omega
  refine ⟨by omega, ?_, ?_, ?_⟩
  · rw [r, show (2 : Nat) ^ 3 = 8 from rfl, q, Nat.add_mul_mod_self_left, Nat.mod_eq_of_lt ha]
  · rw [r, e, ← Nat.div_div_eq_div_mul, q, Nat.add_mul_div_left _ _ hpos, Nat.div_eq_of_lt ha, Nat.zero_add,
      Nat.mod_eq_of_lt hb]
  · have e2 : 2 ^ (3 + W + A) = 8 * (2 ^ W * 2 ^ A) := by rw [pow_add, pow_add]; ring
    have hm : 2 ^ W * (b + 1) ≤ 2 ^ W * 2 ^ A := Nat.mul_le_mul_left _ hb
    rw [r, e2]
    rw [Nat.mul_succ] at hm
    omega

theorem FieldsReadBack.init (port : Port) (arg0 arg1 : Nat) : FieldsReadBack.Statement (.init port arg0 arg1) :=
  fun c h => FieldsReadBack.layout c.W c.A 0 arg0 arg1 (by decide) h.1 h.2.1

theorem FieldsReadBack.clear (port : Port) (arg0 arg1 : Nat) : FieldsReadBack.Statement (.clear port arg0 arg1) :=
  fun c h => FieldsReadBack.layout c.W c.A 1 arg0 arg1 (by decide) h.1 h.2.1

theorem FieldsReadBack.dataCount (port : Port) (arg0 arg1 : Nat) :
    FieldsReadBack.Statement (.dataCount port arg0 arg1) :=
  fun c h => FieldsReadBack.layout c.W c.A 2 arg0 arg1 (by decide) h.1 h.2.1

theorem FieldsReadBack.spaceCount (port : Port) (arg0 arg1 : Nat) :
    FieldsReadBack.Statement (.spaceCount port arg0 arg1) :=
  fun c h => FieldsReadBack.layout c.W c.A 3 arg0 arg1 (by decide) h.1 h.2.1

theorem FieldsReadBack.write (port : Port) (arg0 arg1 : Nat) (src : List Byte) :
    FieldsReadBack.Statement (.write port arg0 arg1 src) :=
  fun c h => FieldsReadBack.layout c.W c.A 4 arg0 arg1 (by decide) h.1 h.2.1

theorem FieldsReadBack.read (port : Port) (arg0 arg1 : Nat) : FieldsReadBack.Statement (.read port arg0 arg1) :=
  fun c h => FieldsReadBack.layout c.W c.A 5 arg0 arg1 (by decide) h.1 h.2.1

theorem FieldsReadBack.reserved6 (port : Port) (arg0 arg1 : Nat) :
    FieldsReadBack.Statement (.reserved6 port arg0 arg1) :=
  fun c h => FieldsReadBack.layout c.W c.A 6 arg0 arg1 (by decide) h.1 h.2.1

theorem FieldsReadBack.reserved7 (port : Port) (arg0 arg1 : Nat) :
    FieldsReadBack.Statement (.reserved7 port arg0 arg1) :=
  fun c h => FieldsReadBack.layout c.W c.A 7 arg0 arg1 (by decide) h.1 h.2.1

end Sys2Proof.Laws
end

