-- ==== Sys2Proof/Tests/Slice0.lean ====
section
/-! SUPPORT. Slice0.lean: the model's own tests. Expected values come from 95_test_vectors.md (the section is named at
each test) or from the rule named; the witness theorems show that each statement's hypotheses can be met together. -/

namespace Sys2Proof.Tests
open Sys2Proof Sys2Proof.Machine

/-! Small states, written `(cap, wr, rd, ovf)` as in 95_test_vectors.md. -/

/-- The active buffer of the manual's worked examples: base 0x100, with `A` to `F` in slots 0 to 5. -/
def buffer (cap wr rd ovf : Nat) : State :=
  { State.reset with
    active := true
    capacitySlots := cap
    storageBase := 0x100
    writeIndex := wr
    readIndex := rd
    overflowCount := ovf
    storage := [(0x100, 0x41), (0x101, 0x42), (0x102, 0x43), (0x103, 0x44), (0x104, 0x45), (0x105, 0x46)] }

/-- Two bytes `C`, `D` to read, in slots 2 and 3. -/
def live : State := buffer 6 4 2 0

/-- A full buffer: `write_index = 1`, `read_index = 2`, one byte dropped (2.5). -/
def full6 : State := buffer 6 1 2 1

/-- An empty buffer: `write_index = read_index = 5`. -/
def empty6 : State := buffer 6 5 5 0

/-- A `WRITE` of four bytes with its first still to store (2.6, trace line W1). -/
def writing : State := { live with portP := .copy ⟨4, 3, 0, 1, [1, 2, 3, 4]⟩ }

/-- A `WRITE` with nothing to store and two bytes to count, about to publish (2.6, line 5). -/
def counting : State := { full6 with portP := .publish ⟨1, 0, 0, 2, [9, 9]⟩ }

/-- A `WRITE` that found a full buffer which has been emptied since, about to publish (R84, last row). -/
def dropping : State := { empty6 with portP := .publish ⟨5, 0, 0, 1, [9]⟩ }

/-- A `READ` of two bytes with its first still to copy. -/
def reading : State := { live with portC := .copy ⟨2, 2, 0, []⟩ }

/-- A `READ` of two bytes about to publish. -/
def returning : State := { live with portC := .publish ⟨2, 2, 2, [0x43, 0x44]⟩ }

/-- The state with `cmd` the one command of port `p` and the port's turn scheduled. -/
def with1 (s : State) (p : Port) (cmd : Command) : State :=
  { s.withCommands p [cmd] with schedule := [.turn p] }

/-- What a step answers on port `p`, none where it stops. -/
def answer (p : Port) : Host.Outcome State Fault Refusal → Option (List Response)
  | .next t => some (t.responses p)
  | .fault _ => none
  | .refused _ => none

/-- The descriptor a step leaves, as `(active, cap, base, wr, rd, ovf)`. -/
def descriptor : Host.Outcome State Fault Refusal → Option (Bool × Nat × Nat × Nat × Nat × Nat)
  | .next t => some (t.active, t.capacitySlots, t.storageBase, t.writeIndex, t.readIndex, t.overflowCount)
  | .fault _ => none
  | .refused _ => none

/-! WellFormed refuses an ill-formed term for each of its checks. -/

theorem test_wellFormed_arg0 : ¬(Instr.init .P (2 ^ 32) 0).WellFormed Config.default := by decide
theorem test_wellFormed_arg1 : ¬(Instr.init .P 6 (2 ^ 32)).WellFormed Config.default := by decide
theorem test_wellFormed_payload : ¬(Instr.write .P 3 0 [1, 2]).WellFormed Config.default := by decide
theorem test_wellFormed_good : (Instr.write .P 2 0 [1, 2]).WellFormed Config.default := by decide
theorem test_config_default_valid : Config.default.Valid := by decide
theorem test_config_valid_refuses_narrow_index : ¬{ Config.default with W := 23 }.Valid := by decide

/-! Decoding: one word per constructor, written out from R53 and 2.3 as `arg1`, `arg0`, `op`. -/

theorem test_decode_init :
    decode Config.default .P ⟨0b100000000_00000000000000000000000000000110_000, []⟩ = .ok (.init .P 6 0x100) := rfl
theorem test_decode_clear :
    decode Config.default .C ⟨0b1001_00000000000000000000000000000101_001, []⟩ = .ok (.clear .C 5 9) := rfl
theorem test_decode_dataCount : decode Config.default .P ⟨0b010, []⟩ = .ok (.dataCount .P 0 0) := rfl
theorem test_decode_spaceCount : decode Config.default .C ⟨0b011, []⟩ = .ok (.spaceCount .C 0 0) := rfl
theorem test_decode_write : decode Config.default .P ⟨0b10_100, [7, 8]⟩ = .ok (.write .P 2 0 [7, 8]) := rfl
theorem test_decode_read : decode Config.default .C ⟨0b101_101, []⟩ = .ok (.read .C 5 0) := rfl
theorem test_decode_reserved6 : decode Config.default .P ⟨0b110, []⟩ = .ok (.reserved6 .P 0 0) := rfl
theorem test_decode_reserved7 : decode Config.default .C ⟨0b111, []⟩ = .ok (.reserved7 .C 0 0) := rfl
/-- 2.3: "all 64 operand bits set". -/
theorem test_decode_all_operand_bits :
    decode Config.default .P ⟨0x7FFFFFFFFFFFFFFF8, []⟩ = .ok (.init .P 0xFFFFFFFF 0xFFFFFFFF) := rfl
theorem test_decode_too_wide : decode Config.default .P ⟨2 ^ 67, []⟩ = .error .wordTooWide := rfl
theorem test_decode_payload_length : decode Config.default .P ⟨0b10_100, [7]⟩ = .error .payloadLength := rfl
theorem test_decode_other_widths :
    decode { Config.default with W := 8, A := 4 } .P ⟨0b1001_00000110_000, []⟩ = .ok (.init .P 6 9) := rfl
theorem test_encode_init : (encode Config.default (.init .P 8 0xFF8)).word = 0x7FC000000040 := by decide
/-- 2.3: `OK 8388607`. -/
theorem test_response_word : Response.word ⟨.ok, 0x7FFFFF, []⟩ = 0x1FFFFFC := by decide
theorem test_table_words :
    [0, 1, 2, 3, 4, 5, 6, 7].map (fun w => (decodeTableWord 72 w).map Instr.opcode) =
      [0, 1, 2, 3, 4, 5, 6, 7].map some := by decide
theorem test_table_word_first_step :
    [0, 1, 2, 3, 4, 5, 6, 7].map (fun w => (answer (tablePort w) (step (State.reset.withFetchWord 8 w))).map
        (List.map Response.word)) =
      [some [2], some [1], some [1], some [1], some [1], some [1], some [3], some [3]] := by decide

/-! Arithmetic (2.1). -/

theorem test_diff_wraps : diff 1 2 6 = 5 := by decide
theorem test_adv_lands_on_cap : adv 5 1 6 = 0 := by decide
theorem test_split_wraps : split 4 3 6 = (2, 1) := by decide
theorem test_satAdd : satAdd 32 4294967294 3 = 4294967295 := by decide

/-! The mux (2.2). -/

theorem test_muxWrite_lane5 : muxWrite .x8 0x105 0xE7 = ⟨0x20, 0b00100000, List.replicate 8 0xE7⟩ := by decide
theorem test_muxWrite_word : wordValue (muxWrite .x4 0x101 0x42).wdata = 0x42424242 := by decide
theorem test_wordRead : wordValue (wordRead .x4 live.storage 0x40) = 0x44434241 := by decide
theorem test_wordWrite_other_lanes :
    wordValue (wordRead .x4 (wordWrite .x4 live.storage (muxWrite .x4 0x101 0x99)) 0x40) = 0x44439941 := by decide

/-! The commands, one step each. -/

/-- 2.4: `INIT base=0xFF8, cap=8`, the region ending at the last byte. -/
theorem test_init_last_byte :
    descriptor (exec (.init .P 8 0xFF8) State.reset) = some (true, 8, 0xFF8, 0, 0, 0) := by decide
/-- 2.4: `base + cap` is an integer sum; a wrapped one would pass. -/
theorem test_init_sum_does_not_wrap :
    answer .P (exec (.init .P 2 0xFFFFFFFF) State.reset) = some [⟨.invalidConfiguration, 0, []⟩] := by decide
/-- 2.4: `CLEAR` on `(1,6,0x100,1,2,1)`. -/
theorem test_clear : descriptor (exec (.clear .C 0 0) full6) = some (true, 6, 0x100, 0, 0, 0) := by decide
theorem test_clear_peer_busy : descriptor (exec (.clear .C 0 0) writing) = none := by decide
/-- 2.5. -/
theorem test_dataCount : answer .C (exec (.dataCount .C 0 0) full6) = some [⟨.ok, 5, []⟩] := by decide
theorem test_spaceCount : answer .P (exec (.spaceCount .P 0 0) live) = some [⟨.ok, 3, []⟩] := by decide
theorem test_spaceCount_inactive :
    answer .P (exec (.spaceCount .P 0 0) State.reset) = some [⟨.notActive, 0, []⟩] := by decide
/-- 2.6, trace line W1. -/
theorem test_write_samples :
    exec (.write .P 4 0 [1, 2, 3, 4]) live = .next { live with portP := .copy ⟨4, 3, 0, 1, [1, 2, 3, 4]⟩ } := rfl
theorem test_write_illegal_on_C :
    answer .C (exec (.write .C 2 0 [1, 2]) live) = some [⟨.illegalCommand, 0, []⟩] := by decide
theorem test_read_samples :
    exec (.read .C 10 0) full6 = .next { full6 with portC := .copy ⟨2, 5, 0, []⟩ } := rfl
theorem test_read_illegal_before_active :
    answer .P (exec (.read .P 2 0) State.reset) = some [⟨.illegalCommand, 0, []⟩] := by decide
theorem test_reserved6 : answer .P (exec (.reserved6 .P 1 2) live) = some [⟨.illegalCommand, 0, []⟩] := by decide
theorem test_reserved7 : descriptor (exec (.reserved7 .C 1 2) live) = some (true, 6, 0x100, 4, 2, 0) := by decide

/-! The later steps of a transfer. -/

/-- 2.6, the first W2: `S[base + 4] <- 1`. -/
theorem test_writeCopy :
    (match writeCopy ⟨4, 3, 0, 1, [1, 2, 3, 4]⟩ writing with
      | .next t => some (t.byteAt 0x104, t.portP)
      | _ => none) = some (1, .copy ⟨4, 3, 1, 1, [1, 2, 3, 4]⟩) := by decide
/-- 2.6: full, `ovf` 7 and two bytes dropped. -/
theorem test_writePublish_counts :
    descriptor (runEvent (.turn .P) { counting with overflowCount := 7 }) = some (true, 6, 0x100, 1, 2, 9) := by decide
/-- Program 1, line 3: `READ n=2`, its last byte. -/
theorem test_readCopy_last :
    (match readCopy ⟨2, 2, 1, [0x43]⟩ reading with
      | .next t => some t.portC
      | _ => none) = some (.publish ⟨2, 2, 2, [0x43, 0x44]⟩) := by decide
theorem test_readPublish :
    answer .C (runEvent (.turn .C) returning) = some [⟨.ok, 2, [0x43, 0x44]⟩] := by decide

/-! Flags, observation, reset, the step. -/

theorem test_flags : (State.reset.empty, State.reset.full, full6.empty, full6.full, empty6.empty, empty6.full) =
    (true, true, false, true, true, false) := by decide
theorem test_observe : (full6.observe .C).observations = [⟨.C, ⟨true, false, true, 1, 2, 1, 6⟩⟩] := by decide
theorem test_reset_abandons : answer .P (runEvent .reset writing) = some [] := by decide
theorem test_unscheduled_step_runs_the_only_port : step writing = writeCopy ⟨4, 3, 0, 1, [1, 2, 3, 4]⟩ writing := rfl
theorem test_nothing_to_do : step live = .next live := rfl

/-! The invariant holds of states of every phase. -/

theorem active_live : ActiveOk live := ⟨by decide, by decide, by decide, by decide, by decide⟩

theorem inv_live : Inv live where
  cfg := by decide
  active _ := ⟨by decide, by decide, by decide, by decide, by decide⟩
  inactive h := by cases h
  overflow := by decide
  storage_wf := by decide
  storage_in_space := by decide
  write_seq := trivial
  read_seq := trivial

theorem inv_full6 : Inv full6 where
  cfg := by decide
  active _ := ⟨by decide, by decide, by decide, by decide, by decide⟩
  inactive h := by cases h
  overflow := by decide
  storage_wf := by decide
  storage_in_space := by decide
  write_seq := trivial
  read_seq := trivial

theorem inv_empty6 : Inv empty6 where
  cfg := by decide
  active _ := ⟨by decide, by decide, by decide, by decide, by decide⟩
  inactive h := by cases h
  overflow := by decide
  storage_wf := by decide
  storage_in_space := by decide
  write_seq := trivial
  read_seq := trivial

theorem inv_writing : Inv writing where
  cfg := by decide
  active _ := ⟨by decide, by decide, by decide, by decide, by decide⟩
  inactive h := by cases h
  overflow := by decide
  storage_wf := by decide
  storage_in_space := by decide
  write_seq := ⟨⟨by decide, by decide, by decide, by decide, by decide, by decide, by decide,
    fun _ h => absurd h (Nat.not_lt_zero _)⟩, by decide⟩
  read_seq := trivial

theorem inv_counting : Inv counting where
  cfg := by decide
  active _ := ⟨by decide, by decide, by decide, by decide, by decide⟩
  inactive h := by cases h
  overflow := by decide
  storage_wf := by decide
  storage_in_space := by decide
  write_seq := ⟨⟨by decide, by decide, by decide, by decide, by decide, by decide, by decide,
    fun _ h => absurd h (Nat.not_lt_zero _)⟩, by decide⟩
  read_seq := trivial

theorem inv_dropping : Inv dropping where
  cfg := by decide
  active _ := ⟨by decide, by decide, by decide, by decide, by decide⟩
  inactive h := by cases h
  overflow := by decide
  storage_wf := by decide
  storage_in_space := by decide
  write_seq := ⟨⟨by decide, by decide, by decide, by decide, by decide, by decide, by decide,
    fun _ h => absurd h (Nat.not_lt_zero _)⟩, by decide⟩
  read_seq := trivial

theorem inv_reading : Inv reading where
  cfg := by decide
  active _ := ⟨by decide, by decide, by decide, by decide, by decide⟩
  inactive h := by cases h
  overflow := by decide
  storage_wf := by decide
  storage_in_space := by decide
  write_seq := trivial
  read_seq := ⟨⟨by decide, by decide, by decide, by decide, by decide, by decide⟩, by decide⟩

theorem inv_returning : Inv returning where
  cfg := by decide
  active _ := ⟨by decide, by decide, by decide, by decide, by decide⟩
  inactive h := by cases h
  overflow := by decide
  storage_wf := by decide
  storage_in_space := by decide
  write_seq := trivial
  read_seq := ⟨⟨by decide, by decide, by decide, by decide, by decide, by decide⟩, by decide⟩

/-! Witnesses: one per statement with hypotheses, named after it; each clause at a boundary value of its range. -/

theorem witness_DecodeOfEncode :
    (Instr.init .P (2 ^ 32 - 1) (2 ^ 32 - 1)).WellFormed Config.default ∧
    (Instr.write .C 2 (2 ^ 32 - 1) [1, 2]).WellFormed Config.default := by decide
theorem witness_EncodeOfDecode :
    decode Config.default .C ⟨2 ^ 67 - 1, []⟩ = .ok (.reserved7 .C (2 ^ 32 - 1) (2 ^ 32 - 1)) := rfl
theorem witness_EveryWordDecodes :
    (2 ^ 67 - 1 < 2 ^ (3 + Config.default.W + Config.default.A) ∧
      ([] : List Byte).length = if (2 ^ 67 - 1) % 8 = 4 then (2 ^ 67 - 1) / 8 % 2 ^ Config.default.W else 0) ∧
    (12 < 2 ^ (3 + Config.default.W + Config.default.A) ∧
      ([9] : List Byte).length = if 12 % 8 = 4 then 12 / 8 % 2 ^ Config.default.W else 0) := by decide
theorem witness_ResponseWordRoundTrip : 2 ^ 32 - 1 < 2 ^ Config.default.W := by decide
theorem witness_NotACommandIsRefused :
    (live.withCommands .P [⟨2 ^ 67, []⟩]).portIdle .P = true ∧
    (live.withCommands .P [⟨2 ^ 67, []⟩]).commands .P = ⟨2 ^ 67, []⟩ :: [] ∧
    decode live.cfg .P ⟨2 ^ 67, []⟩ = .error .wordTooWide ∧ decode live.cfg .P ⟨12, []⟩ = .error .payloadLength :=
  ⟨rfl, rfl, rfl, rfl⟩
theorem witness_InitBindsOrChangesNothing :
    (State.reset.portIdle .C = true ∧ State.reset.portIdle Port.C.peer = true ∧ 2 ≤ 2 ∧
      2 ≤ State.reset.cfg.cbMaxSize ∧ 0xFFE + 2 ≤ State.reset.cfg.storageBytes) ∧
    (live.portIdle .P = true ∧ live.portIdle Port.P.peer = true ∧
      ∀ x ∈ [(1, 0), (8388609, 0), (8, 0xFF9)],
        ¬(2 ≤ x.1 ∧ x.1 ≤ live.cfg.cbMaxSize ∧ x.2 + x.1 ≤ live.cfg.storageBytes)) := by decide
theorem witness_ClearZeroes :
    (full6.portIdle .C = true ∧ full6.portIdle Port.C.peer = true ∧ full6.active = true ∧ 2 ≤ full6.capacitySlots) ∧
    (State.reset.portIdle .P = true ∧ State.reset.portIdle Port.P.peer = true ∧ State.reset.active = false) := by decide
theorem witness_ConfigNeedsQuiescentPeer :
    (writing.portIdle .C = true ∧ writing.portIdle Port.C.peer = false) ∧
    (returning.portIdle .P = true ∧ returning.portIdle Port.P.peer = false) := by decide
theorem witness_ConfigIdempotent :
    (full6.quiescent = true ∧ full6.active = true ∧ validConfig full6.cfg 0x200 16 = true) ∧
    (State.reset.quiescent = true ∧ State.reset.active = false ∧
      validConfig State.reset.cfg 0xFFE 2 = true) := by decide
theorem witness_DataCountIsDifferenceModCapacity :
    (full6.portIdle .P = true ∧ full6.active = true ∧ 2 ≤ full6.capacitySlots ∧
      full6.writeIndex < full6.capacitySlots ∧ full6.readIndex < full6.capacitySlots) ∧
    (State.reset.portIdle .C = true ∧ State.reset.active = false) := by decide
theorem witness_SpaceCountIsTheRest :
    (empty6.portIdle .C = true ∧ empty6.active = true ∧ 2 ≤ empty6.capacitySlots ∧
      empty6.writeIndex < empty6.capacitySlots ∧ empty6.readIndex < empty6.capacitySlots) ∧
    (State.reset.portIdle .P = true ∧ State.reset.active = false) := by decide
theorem witness_CountsSumToUsableCapacity :
    ActiveOk live ∧ live.active = true ∧ live.portIdle .P = true ∧ live.portIdle .C = true :=
  ⟨active_live, rfl, rfl, rfl⟩
theorem witness_FlagsAgreeWithCounts :
    (State.reset.active = false ∧ State.reset.portIdle .P = true) ∧
    (full6.active = true ∧ ActiveOk full6 ∧ full6.portIdle .C = true) ∧ (empty6.active = true ∧ ActiveOk empty6) :=
  ⟨⟨rfl, rfl⟩, ⟨rfl, inv_full6.active rfl, rfl⟩, ⟨rfl, inv_empty6.active rfl⟩⟩
theorem witness_CountsStaleOnTheSafeSide :
    (∃ t, Inv counting ∧ counting.zeroedBy (.turn .P) = false ∧ runEvent (.turn .P) counting = .next t) ∧
    (∃ t, Inv returning ∧ returning.zeroedBy (.turn .C) = false ∧ runEvent (.turn .C) returning = .next t) :=
  ⟨⟨_, inv_counting, rfl, rfl⟩, ⟨_, inv_returning, rfl, rfl⟩⟩
theorem witness_NotActiveChangesNothing :
    State.reset.active = false ∧ State.reset.portIdle .P = true ∧ State.reset.portIdle .C = true ∧
    State.reset.portIdle Port.P.peer = true ∧ State.reset.portIdle Port.C.peer = true := by decide
theorem witness_IllegalCommandChangesNothing : live.portIdle .P = true ∧ live.portIdle .C = true := by decide
theorem witness_ErrorsArePrecise :
    ∃ t, runEvent (.turn .P) (live.withCommands .P [⟨6, []⟩]) = .next t ∧
      t.responses .P = (live.withCommands .P [⟨6, []⟩]).responses .P ++ [⟨.illegalCommand, 0, []⟩] ∧
      Status.illegalCommand ≠ .ok := ⟨_, rfl, rfl, by decide⟩
theorem witness_ConditionsInPriorityOrder :
    (∃ t, exec (.read .P 0 0) State.reset = .next t ∧ (Instr.read .P 0 0).legal = false) ∧
    (∃ t, exec (.init .P 1 0) State.reset = .next t ∧ validConfig State.reset.cfg 0 1 = false) ∧
    (∃ t, exec (.write .P 0 0 []) State.reset = .next t ∧ State.reset.active = false) ∧
    (∃ t, exec (.write .P 0 0 []) live = .next t ∧ live.active = true) ∧
    (∃ t, exec (.read .C 3 0) empty6 = .next t ∧ empty6.dataCount = 0) ∧
    (∃ t, exec (.write .P 1 0 [7]) full6 = .next t ∧ full6.active = true) :=
  ⟨⟨_, rfl, rfl⟩, ⟨_, rfl, rfl⟩, ⟨_, rfl, rfl⟩, ⟨_, rfl, rfl⟩, ⟨_, rfl, rfl⟩, ⟨_, rfl, rfl⟩⟩
theorem witness_BusyPortRunsNoCommand :
    writing.portIdle (Instr.dataCount .P 0 0).port = false ∧ returning.portIdle (Instr.read .C 1 0).port = false := by
  decide
theorem witness_WriteSamples :
    (full6.active = true ∧ full6.portP = .idle) ∧ (State.reset.active = false ∧ State.reset.portP = .idle) ∧
    (1 : Nat) ≠ 0 := by decide
theorem witness_WriteCopiesOneByte :
    writing.portP = .copy ⟨4, 3, 0, 1, [1, 2, 3, 4]⟩ ∧ ([1, 2, 3, 4] : List Byte)[0]? = some 1 ∧
    writing.storageBase + adv 4 0 writing.capacitySlots < writing.cfg.storageBytes := by decide
theorem witness_WritePublishes : counting.portP = .publish ⟨1, 0, 0, 2, [9, 9]⟩ := by decide
theorem witness_ReadSamples :
    (State.reset.active = false ∧ State.reset.portC = .idle) ∧
    (empty6.active = true ∧ empty6.portC = .idle ∧
      diff empty6.writeIndex empty6.readIndex empty6.capacitySlots = 0) ∧
    (live.active = true ∧ live.portC = .idle ∧ diff live.writeIndex live.readIndex live.capacitySlots ≠ 0) := by decide
theorem witness_ReadCopiesOneByte :
    reading.portC = .copy ⟨2, 2, 0, []⟩ ∧
    reading.storageBase + adv 2 0 reading.capacitySlots < reading.cfg.storageBytes := by decide
theorem witness_ReadPublishes : returning.portC = .publish ⟨2, 2, 2, [0x43, 0x44]⟩ := by decide
theorem witness_StepRunsTheDecodedCommand :
    (with1 live .P ⟨12, [7]⟩).schedule = .turn .P :: [] ∧ (with1 live .P ⟨12, [7]⟩).portIdle .P = true ∧
    (with1 live .P ⟨12, [7]⟩).commands .P = ⟨12, [7]⟩ :: [] ∧
    decode live.cfg .P ⟨12, [7]⟩ = .ok (.write .P 1 0 [7]) := ⟨rfl, rfl, rfl, rfl⟩
theorem witness_StepFollowsTheSchedule :
    (with1 live .P ⟨2, []⟩).schedule = .turn .P :: [] ∧
    (live.schedule = [] ∧ live.enabled .P = false ∧ live.enabled .C = false) ∧
    (writing.schedule = [] ∧ writing.enabled .P = true ∧ writing.enabled .C = false) ∧
    (reading.schedule = [] ∧ reading.enabled .P = false ∧ reading.enabled .C = true) ∧
    ({ writing with portC := .copy ⟨2, 2, 0, []⟩ }.enabled .P = true ∧
      { writing with portC := .copy ⟨2, 2, 0, []⟩ }.enabled .C = true) := by decide
theorem witness_BusyPortHoldsItsCommands :
    ∃ t, runEvent (.turn .P) (with1 live .P ⟨2, []⟩) = .next t ∧
      t.commands .P ≠ (with1 live .P ⟨2, []⟩).commands .P := ⟨_, rfl, by decide⟩
theorem witness_DiffIsDifferenceMod : 2 ≤ 2 ∧ 0 < 2 ∧ 1 < 2 := by decide
theorem witness_AdvIsSumMod : 2 ≤ 6 ∧ 5 < 6 ∧ 5 ≤ 6 - 1 := by decide
theorem witness_SplitCoversTheCopy : 2 ≤ 6 ∧ 5 < 6 ∧ 5 ≤ 6 - 1 ∧ split 5 5 6 = (1, 4) := by decide
theorem witness_MuxReadSelectsTheByte : 7 < Lanes.x8.bytes := by decide
theorem witness_OnlyWriteCopyStores :
    ∃ t, runEvent (.turn .P) writing = .next t ∧ t.byteAt 0x104 ≠ writing.byteAt 0x104 := ⟨_, rfl, by decide⟩
theorem witness_CommandFrame :
    (∃ t, exec (.read .C 1 0) live = .next t ∧ (Instr.read .C 1 0).port = .C ∧ (Instr.read .C 1 0).opcode ≠ 4) ∧
    (∃ t, exec (.write .P 1 0 [7]) live = .next t ∧ (Instr.write .P 1 0 [7]).port = .P ∧
      (Instr.write .P 1 0 [7]).opcode ≠ 5) := ⟨⟨_, rfl, rfl, by decide⟩, ⟨_, rfl, rfl, by decide⟩⟩
theorem witness_SlotsArePartitioned : ActiveOk full6 ∧ ActiveOk empty6 :=
  ⟨inv_full6.active rfl, inv_empty6.active rfl⟩
theorem witness_TransfersKeepToTheirSlots :
    (Inv writing ∧ writing.portP = .copy ⟨4, 3, 0, 1, [1, 2, 3, 4]⟩) ∧
    (Inv reading ∧ reading.portC = .copy ⟨2, 2, 0, []⟩) := ⟨⟨inv_writing, rfl⟩, ⟨inv_reading, rfl⟩⟩
theorem witness_EveryStepKeepsInv :
    (∃ t, Inv writing ∧ step writing = .next t) ∧ (∃ t, Inv returning ∧ step returning = .next t) :=
  ⟨⟨_, inv_writing, rfl⟩, ⟨_, inv_returning, rfl⟩⟩
theorem witness_RegistersKeepTheirWidths :
    (Inv writing ∧ (writing.portP = .copy ⟨4, 3, 0, 1, [1, 2, 3, 4]⟩ ∨
      writing.portP = .publish ⟨4, 3, 0, 1, [1, 2, 3, 4]⟩)) ∧
    (Inv returning ∧ (returning.portC = .copy ⟨2, 2, 2, [0x43, 0x44]⟩ ∨
      returning.portC = .publish ⟨2, 2, 2, [0x43, 0x44]⟩)) ∧ (full6.active = true ∧ 5 ≤ full6.capacitySlots - 1) :=
  ⟨⟨inv_writing, .inl rfl⟩, ⟨inv_returning, .inr rfl⟩, by decide⟩
theorem witness_OneSlotGap :
    (∃ t, Inv counting ∧ counting.portP = .publish ⟨1, 0, 0, 2, [9, 9]⟩ ∧ runEvent (.turn .P) counting = .next t) ∧
    (∃ t, Inv dropping ∧ dropping.portP = .publish ⟨5, 0, 0, 1, [9]⟩ ∧ runEvent (.turn .P) dropping = .next t ∧
      t.writeIndex = t.readIndex) := ⟨⟨_, inv_counting, rfl, rfl⟩, ⟨_, inv_dropping, rfl, rfl, rfl⟩⟩
theorem witness_OnlyInitBinds :
    (∃ t, runEvent .reset live = .next t ∧ t.active ≠ live.active) ∧
    (∃ t, runEvent (.turn .P) (live.withCommands .P [⟨0x40, []⟩]) = .next t ∧ t.capacitySlots ≠ live.capacitySlots) :=
  ⟨⟨_, rfl, by decide⟩, ⟨_, rfl, by decide⟩⟩
theorem witness_EachIndexHasOneWriter :
    (∃ t, runEvent (.turn .C) returning = .next t ∧ returning.zeroedBy (.turn .C) = false) ∧
    (∃ t, runEvent (.turn .P) counting = .next t ∧ counting.zeroedBy (.turn .P) = false) :=
  ⟨⟨_, rfl, rfl⟩, ⟨_, rfl, rfl⟩⟩
theorem witness_OnlyPublishIsVisible :
    ∃ t, runEvent (.turn .P) writing = .next t ∧ writing.zeroedBy (.turn .P) = false ∧
      (∀ f, writing.portP ≠ .publish f) := ⟨_, rfl, rfl, fun _ h => by cases h⟩
theorem witness_OverflowCountsDroppedBytes :
    (∃ t, full6.overflowCount < 2 ^ full6.cfg.ovfW ∧ runEvent .reset full6 = .next t ∧ full6.zeroedBy .reset = true) ∧
    (∃ t, counting.overflowCount < 2 ^ counting.cfg.ovfW ∧ runEvent (.turn .P) counting = .next t ∧
      counting.zeroedBy (.turn .P) = false) := ⟨⟨_, by decide, rfl, rfl⟩, ⟨_, by decide, rfl, rfl⟩⟩
theorem witness_ResponsesStayWellFormed :
    ∃ t, Inv returning ∧ step returning = .next t ∧
      ∀ p, ∀ r ∈ returning.responses p, ResponseFits returning.cfg r ∧ BytesMatch r :=
  ⟨_, inv_returning, rfl, fun p r h => by cases p <;> cases h⟩
theorem witness_NothingStopsUnderTheContract :
    Inv reading ∧ reading.breaksContract (.turn .C) = false ∧
    (∀ p cmd rest, Event.turn .C = .turn p → reading.portIdle p = true → reading.commands p = cmd :: rest →
      ∃ i, decode reading.cfg p cmd = .ok i) :=
  ⟨inv_reading, rfl, fun p _ _ h hp => by cases h; exact absurd hp (by decide)⟩
theorem witness_TransfersFinishInBoundedSteps :
    (Inv writing ∧ 0 < writing.remaining .P) ∧ (Inv returning ∧ 0 < returning.remaining .C) :=
  ⟨⟨inv_writing, by decide⟩, ⟨inv_returning, by decide⟩⟩
theorem witness_FifoStep :
    (∃ t, Inv live ∧ runEvent .reset live = .next t ∧ live.zeroedBy .reset = true) ∧
    (∃ t, Inv returning ∧ runEvent (.turn .C) returning = .next t ∧ returning.zeroedBy (.turn .C) = false) :=
  ⟨⟨_, inv_live, rfl, rfl⟩, ⟨_, inv_returning, rfl, rfl⟩⟩

/-- `live` with a `WRITE` of four bytes to issue and its five turns scheduled (2.6, line 2). -/
def writer : State := { live with pCommands := [⟨0x24, [1, 2, 3, 4]⟩], schedule := turns .P 5 ++ [] }

/-- `live` with a `READ` of two bytes to issue and its four turns scheduled. -/
def reader : State := { live with cCommands := [⟨0x15, []⟩], schedule := turns .C 4 ++ [] }

/-- An empty buffer with a `WRITE` and then a `READ` of five bytes, wrapping (2.6, line 3). -/
def roundTrip : State :=
  { empty6 with
    pCommands := [⟨0x2C, [1, 2, 3, 4, 5]⟩]
    cCommands := [⟨0x2D, []⟩]
    schedule := turns .P 7 ++ turns .C 7 }

/-- The invariant does not look at what the agents will issue nor at the schedule. -/
theorem inv_inputs {s : State} (h : Inv s) (ps cs : List Command) (es : List Event) :
    Inv { s with pCommands := ps, cCommands := cs, schedule := es } where
  cfg := h.cfg
  active ha := let a := h.active ha; ⟨a.1, a.2, a.3, a.4, a.5⟩
  inactive ha := let a := h.inactive ha; ⟨a.1, a.2, a.3, a.4, a.5, a.6⟩
  overflow := h.overflow
  storage_wf := h.storage_wf
  storage_in_space := h.storage_in_space
  write_seq := by
    have w := h.write_seq
    unfold WriteSeqOk at w ⊢
    cases hp : s.portP with
    | idle => trivial
    | copy f => rw [hp] at w; exact let a := w.1; ⟨⟨a.1, a.2, a.3, a.4, a.5, a.6, a.7, a.8⟩, w.2⟩
    | publish f => rw [hp] at w; exact let a := w.1; ⟨⟨a.1, a.2, a.3, a.4, a.5, a.6, a.7, a.8⟩, w.2⟩
  read_seq := by
    have w := h.read_seq
    unfold ReadSeqOk at w ⊢
    cases hp : s.portC with
    | idle => trivial
    | copy f => rw [hp] at w; exact let a := w.1; ⟨⟨a.1, a.2, a.3, a.4, a.5, a.6⟩, w.2⟩
    | publish f => rw [hp] at w; exact let a := w.1; ⟨⟨a.1, a.2, a.3, a.4, a.5, a.6⟩, w.2⟩

theorem witness_FirstInFirstOut :
    ∃ r, Inv (with1 empty6 .P ⟨12, [7]⟩) ∧ (with1 empty6 .P ⟨12, [7]⟩).contents = [] ∧
      runStream 1 (with1 empty6 .P ⟨12, [7]⟩) ⟨[], []⟩ = some r :=
  ⟨_, inv_inputs inv_empty6 [⟨12, [7]⟩] [] [.turn .P], by decide, rfl⟩
theorem witness_WriteUninterleaved :
    Inv writer ∧ writer.active = true ∧ writer.portP = .idle ∧ writer.pCommands = ⟨0x24, [1, 2, 3, 4]⟩ :: [] ∧
    decode writer.cfg .P ⟨0x24, [1, 2, 3, 4]⟩ = .ok (.write .P 4 0 [1, 2, 3, 4]) ∧ 0 < 4 ∧
    3 = min 4 (writer.capacitySlots - 1 - diff writer.writeIndex writer.readIndex writer.capacitySlots) ∧
    writer.schedule = turns .P (3 + 2) ++ [] := ⟨inv_inputs inv_live _ _ _, rfl, rfl, rfl, rfl, by decide, rfl, rfl⟩
theorem witness_ReadUninterleaved :
    Inv reader ∧ reader.active = true ∧ reader.portC = .idle ∧ reader.cCommands = ⟨0x15, []⟩ :: [] ∧
    decode reader.cfg .C ⟨0x15, []⟩ = .ok (.read .C 2 0) ∧ 0 < 2 ∧
    2 = min 2 (diff reader.writeIndex reader.readIndex reader.capacitySlots) ∧
    reader.schedule = turns .C (2 + 2) ++ [] := ⟨inv_inputs inv_live _ _ _, rfl, rfl, rfl, rfl, by decide, rfl, rfl⟩
theorem witness_WriteThenReadReturnsTheBytes :
    Inv roundTrip ∧ roundTrip.active = true ∧ roundTrip.quiescent = true ∧
    roundTrip.writeIndex = roundTrip.readIndex ∧ roundTrip.pCommands = [⟨0x2C, [1, 2, 3, 4, 5]⟩] ∧
    decode roundTrip.cfg .P ⟨0x2C, [1, 2, 3, 4, 5]⟩ = .ok (.write .P 5 0 [1, 2, 3, 4, 5]) ∧
    roundTrip.cCommands = [⟨0x2D, []⟩] ∧ decode roundTrip.cfg .C ⟨0x2D, []⟩ = .ok (.read .C 5 0) ∧
    5 ≤ roundTrip.capacitySlots - 1 ∧ roundTrip.schedule = turns .P (5 + 2) ++ turns .C (5 + 2) :=
  ⟨inv_inputs inv_empty6 _ _ _, rfl, rfl, rfl, rfl, rfl, rfl, rfl, by decide, rfl⟩

end Sys2Proof.Tests
end

section
/-! The derived flags, the storage a reset leaves, and observations (10_state.md R19 to R21, R26; 70_reset_and_hazards.md
R108). -/

namespace Sys2Proof.Machine

/-! The flags in the form of R19 and R20: a test of the indices while active, 1 otherwise. -/

theorem State.empty_eq_ite (s : State) :
    s.empty = if s.active then decide (s.writeIndex = s.readIndex) else true := by
  unfold State.empty
  cases s.active <;> rfl

theorem State.full_eq_ite (s : State) :
    s.full = if s.active then decide (adv s.writeIndex 1 s.capacitySlots = s.readIndex) else true := by
  unfold State.full
  cases s.active <;> rfl

theorem State.empty_of_inactive {s : State} (h : s.active = false) : s.empty = true := by
  simp [State.empty_eq_ite, h]

theorem State.full_of_inactive {s : State} (h : s.active = false) : s.full = true := by
  simp [State.full_eq_ite, h]

/-! The storage bytes (R29, R108). -/

/-- Nothing is listed as written after reset, so every byte is the free value of its address (log 4). -/
@[simp] theorem State.reset_byteAt (a : Nat) : State.reset.byteAt a = Config.powerUpByte a := rfl

@[simp] theorem State.hostReset_byteAt (s : State) (a : Nat) : s.hostReset.byteAt a = s.byteAt a := by
  rw [State.byteAt, State.hostReset_storage, State.byteAt]

/-! The two events that are no port's turn (R43). -/

@[simp] theorem runEvent_observe (agent : Port) (s : State) :
    runEvent (.observe agent) s = .next (s.observe agent) := rfl

@[simp] theorem runEvent_reset (s : State) : runEvent .reset s = .next s.hostReset := rfl

/-- Settles O7: the registers and phases are the fields of the reset state; its flags are those of an inactive buffer,
and its bytes those of a storage in which nothing has been written. -/
theorem resetValues : Obligations.ResetValues := by
  unfold Obligations.ResetValues
  have inactive : State.reset.active = false := rfl
  exact ⟨inactive, rfl, rfl, rfl, rfl, rfl, rfl, rfl, State.empty_of_inactive inactive,
    State.full_of_inactive inactive, State.reset_byteAt, State.hostReset_byteAt⟩

/-- Settles O34: an observation appends the status outputs, and both flags among them have the form of R19 and R20. -/
theorem observationReadsAllSeven : Obligations.ObservationReadsAllSeven := by
  unfold Obligations.ObservationReadsAllSeven
  intro s agent
  rw [runEvent_observe, State.observe, State.statusOutputs, State.empty_eq_ite, State.full_eq_ite]

end Sys2Proof.Machine
end

section
/-! Index arithmetic and the byte-enable mux (20_memory.md R35, R36, R39 to R41). -/

namespace Sys2Proof

theorem Lanes.bytes_pos (lanes : Lanes) : 0 < lanes.bytes := by cases lanes <;> decide

end Sys2Proof

namespace Sys2Proof.Machine

/-! Index arithmetic: each operation subtracts or adds the capacity at most once, which is reduction modulo it. -/

@[simp] theorem diff_self (w cap : Nat) : diff w w cap = 0 := by simp [diff]

theorem diff_lt {w r cap : Nat} (hw : w < cap) : diff w r cap < cap := by
  unfold diff
  split <;> omega

theorem diff_eq_emod {w r cap : Nat} (hw : w < cap) (hr : r < cap) :
    (diff w r cap : ℤ) = ((w : ℤ) - r) % cap := by
  unfold diff
  split
  · rw [Int.emod_eq_of_lt (by omega) (by omega)]
    omega
  · rw [← Int.add_emod_right, Int.emod_eq_of_lt (by omega) (by omega)]
    omega

theorem adv_zero {idx cap : Nat} (hi : idx < cap) : adv idx 0 cap = idx := by
  rw [adv, if_neg (by omega), Nat.add_zero]

theorem adv_lt {idx k cap : Nat} (hi : idx < cap) (hk : k ≤ cap) : adv idx k cap < cap := by
  unfold adv
  split <;> omega

theorem adv_eq_mod {idx k cap : Nat} (hi : idx < cap) (hk : k ≤ cap) : adv idx k cap = (idx + k) % cap := by
  rw [← Nat.mod_eq_of_lt (adv_lt hi hk), adv]
  split
  · next wraps => rw [← Nat.mod_eq_sub_mod wraps]
  · rfl

/-! The mux. -/

/-- The byte enables of R39 are one-hot. -/
theorem muxWrite_be_testBit (lanes : Lanes) (a j : Nat) (v : Byte) :
    (muxWrite lanes a v).be.testBit j = decide (j = a % lanes.bytes) := by
  rw [muxWrite, Nat.one_shiftLeft, Nat.testBit_two_pow]
  exact decide_eq_decide.2 eq_comm

/-- Every lane carries the byte (R39). -/
theorem muxWrite_wdata_zipIdx (lanes : Lanes) (a : Nat) (v : Byte) :
    (muxWrite lanes a v).wdata.zipIdx = (List.range lanes.bytes).map (v, ·) := by
  apply List.ext_getElem <;> simp [muxWrite]

theorem filter_range_eq_singleton {n i : Nat} (h : i < n) : (List.range n).filter (· = i) = [i] := by
  rw [List.filter_eq, List.count_eq_one_of_mem List.nodup_range (List.mem_range.2 h), List.replicate_one]

/-- A word write with the enables and data of the mux is the write of one byte (R39, R41): of the lanes that it goes
through only `a mod LANES` is enabled, and that lane of word `a div LANES` is at address `a`. -/
@[simp] theorem wordWrite_muxWrite (lanes : Lanes) (m : Memory) (a : Nat) (v : Byte) :
    wordWrite lanes m (muxWrite lanes a v) = m.write a v := by
  have lane_lt : a % lanes.bytes < lanes.bytes := Nat.mod_lt a lanes.bytes_pos
  rw [wordWrite, muxWrite_wdata_zipIdx, List.foldl_map]
  simp only [muxWrite_be_testBit]
  rw [← List.foldl_filter, filter_range_eq_singleton lane_lt, List.foldl_cons, List.foldl_nil, muxWrite,
    Nat.div_add_mod']

/-- Lane `j` of the word read is the byte at lane `j`'s address (R40). -/
theorem wordRead_getElem? {lanes : Lanes} (m : Memory) (wa : Nat) {j : Nat} (h : j < lanes.bytes) :
    (wordRead lanes m wa)[j]? = some (m.byteAt (wa * lanes.bytes + j)) := by
  rw [wordRead, List.getElem?_map, List.getElem?_range h, Option.map_some]

/-- The mux selects `S[a]` (R40): the lane it selects exists, and its address is `a`. -/
@[simp] theorem muxRead_eq_byteAt (lanes : Lanes) (m : Memory) (a : Nat) : muxRead lanes m a = m.byteAt a := by
  have lane_lt : a % lanes.bytes < lanes.bytes := Nat.mod_lt a lanes.bytes_pos
  rw [muxRead, List.getD_eq_getElem?_getD, wordRead_getElem? m _ lane_lt, Option.getD_some, Nat.div_add_mod']

/-- Settles O38: the mux enables one lane, so its word write is one byte's write, and the law of reading after a write
says which byte changes. -/
theorem muxWriteChangesOneByte : Obligations.MuxWriteChangesOneByte := by
  unfold Obligations.MuxWriteChangesOneByte
  intro lanes m a b v
  refine ⟨rfl, fun j => muxWrite_be_testBit lanes a j v, rfl, ?_⟩
  rw [wordWrite_muxWrite, Memory.byteAt_write]

/-- Settles O39: every lane of the word read is in the word, and lane `a mod LANES` is the byte at `a`. -/
theorem muxReadSelectsTheByte : Obligations.MuxReadSelectsTheByte := by
  unfold Obligations.MuxReadSelectsTheByte
  intro lanes m a
  exact ⟨fun _ lane_lt => wordRead_getElem? m _ lane_lt, muxRead_eq_byteAt lanes m a⟩

/-- Settles O35: both indices are below the capacity, so one addition of it makes a negative difference its residue. -/
theorem diffIsDifferenceMod : Obligations.DiffIsDifferenceMod := by
  unfold Obligations.DiffIsDifferenceMod
  intro w r cap _ hw hr
  exact ⟨diff_eq_emod hw hr, Nat.le_sub_one_of_lt (diff_lt hw), diff_self w cap⟩

/-- Settles O36: the index and the advance are below the capacity, so one subtraction of it makes their sum its
residue. -/
theorem advIsSumMod : Obligations.AdvIsSumMod := by
  unfold Obligations.AdvIsSumMod
  intro idx k cap _ hi hk
  have k_le : k ≤ cap := hk.trans (Nat.sub_le cap 1)
  exact ⟨adv_eq_mod hi k_le, adv_lt hi k_le, adv_zero hi⟩

end Sys2Proof.Machine
end

section
/-! Illegal commands (30_encoding.md R58, R59). -/

namespace Sys2Proof.Machine

/-- The four forms that R58 leaves illegal have one meaning (R59), which looks neither at `active` nor at an operand or
a payload. -/
theorem exec_of_illegal {i : Instr} (s : State) (h : i.legal = false) :
    exec i s = s.accept i.port (s.illegal i.port) := by
  cases i with
  | init p a b => cases h
  | clear p a b => cases h
  | dataCount p a b => cases h
  | spaceCount p a b => cases h
  | write p a b src =>
    cases p with
    | P => cases h
    | C => rfl
  | read p a b =>
    cases p with
    | P => rfl
    | C => cases h
  | reserved6 p a b => rfl
  | reserved7 p a b => rfl

/-- An idle port answers an illegal command at once, and the response is the whole of the change (R59). -/
theorem exec_illegal_of_idle {i : Instr} {s : State} (h : i.legal = false) (idle : s.portIdle i.port = true) :
    exec i s = .next (s.respond i.port .illegalCommand 0 []) := by
  rw [exec_of_illegal s h, State.accept_of_idle _ idle, State.illegal]

/-- Settles O21: each of the four forms is illegal by R58. -/
theorem illegalCommandChangesNothing : Obligations.IllegalCommandChangesNothing := by
  unfold Obligations.IllegalCommandChangesNothing
  intro s p a b src idle
  refine ⟨exec_illegal_of_idle rfl idle, exec_illegal_of_idle rfl idle, ?_, ?_⟩
  · rintro rfl
    exact exec_illegal_of_idle rfl idle
  · rintro rfl
    exact exec_illegal_of_idle rfl idle

end Sys2Proof.Machine
end

section
/-! `INIT` and `CLEAR` (40_config_ops.md R65 to R70). -/

namespace Sys2Proof.Machine

/-! What the updates of this family leave of the ports, and what responding leaves of the flags and status outputs. -/

@[simp] theorem State.bindRegion_portIdle (s : State) (base cap : Nat) (q : Port) :
    (s.bindRegion base cap).portIdle q = s.portIdle q := by cases q <;> rfl

@[simp] theorem State.zeroIndices_portIdle (s : State) (q : Port) :
    s.zeroIndices.portIdle q = s.portIdle q := by cases q <;> rfl

@[simp] theorem State.respond_empty (s : State) (p : Port) (st : Status) (v : Nat) (bs : List Byte) :
    (s.respond p st v bs).empty = s.empty := by cases p <;> rfl

@[simp] theorem State.respond_full (s : State) (p : Port) (st : Status) (v : Nat) (bs : List Byte) :
    (s.respond p st v bs).full = s.full := by cases p <;> rfl

@[simp] theorem State.respond_statusOutputs (s : State) (p : Port) (st : Status) (v : Nat) (bs : List Byte) :
    (s.respond p st v bs).statusOutputs = s.statusOutputs := by cases p <;> rfl

theorem State.portIdle_of_quiescent {s : State} (h : s.quiescent = true) (p : Port) : s.portIdle p = true := by
  obtain ⟨idleP, idleC⟩ := Bool.and_eq_true_iff.1 h
  cases p with
  | P => exact idleP
  | C => exact idleC

/-! The data count and the flags with equal or zero indices. -/

theorem State.dataCount_of_indices_eq {s : State} (h : s.writeIndex = s.readIndex) : s.dataCount = 0 := by
  rw [State.dataCount, h, diff_self]

theorem State.empty_of_indices_eq {s : State} (h : s.writeIndex = s.readIndex) : s.empty = true := by
  simp [State.empty, h]

/-- With both indices 0 there is room: one slot on from slot 0 is slot 1 of at least two. -/
theorem State.full_of_indices_zero {s : State} (active : s.active = true) (two_le : 2 ≤ s.capacitySlots)
    (write_zero : s.writeIndex = 0) (read_zero : s.readIndex = 0) : s.full = false := by
  have next_slot : adv 0 1 s.capacitySlots = 1 := by rw [adv, if_neg (by omega)]
  simp [State.full, active, write_zero, read_zero, next_slot]

/-! The updates absorb an earlier update of their own kind, and an earlier response stays in its log. -/

theorem State.zeroIndices_respond (s : State) (p : Port) (st : Status) (v : Nat) (bs : List Byte) :
    (s.respond p st v bs).zeroIndices = s.zeroIndices.respond p st v bs := by cases p <;> rfl

theorem State.bindRegion_respond (s : State) (base cap : Nat) (p : Port) (st : Status) (v : Nat) (bs : List Byte) :
    (s.respond p st v bs).bindRegion base cap = (s.bindRegion base cap).respond p st v bs := by cases p <;> rfl

@[simp] theorem State.zeroIndices_zeroIndices (s : State) : s.zeroIndices.zeroIndices = s.zeroIndices := rfl

@[simp] theorem State.bindRegion_bindRegion (s : State) (base cap base' cap' : Nat) :
    (s.bindRegion base' cap').bindRegion base cap = s.bindRegion base cap := rfl

/-! The guards. -/

theorem State.whenPeerIdle_of_busy {s : State} {p : Port} (body : Host.Outcome State Fault Refusal)
    (h : s.portIdle p.peer = false) : s.whenPeerIdle p body = .fault .peerInFlight := by
  simp [State.whenPeerIdle, h]

theorem State.whenActive_of_inactive {s : State} {p : Port} (body : Host.Outcome State Fault Refusal)
    (h : s.active = false) : s.whenActive p body = .next (s.respond p .notActive 0 []) := by
  simp [State.whenActive, h]

/-! The meaning of each command, one lemma per answer. -/

section
variable {s : State} {p : Port} (idle : s.portIdle p = true)
include idle

theorem exec_init_of_peer_busy (cap base : Nat) (peer_busy : s.portIdle p.peer = false) :
    exec (.init p cap base) s = .fault .peerInFlight := by
  rw [exec, execInit, State.accept_of_idle _ idle, State.whenPeerIdle_of_busy _ peer_busy]

theorem exec_clear_of_peer_busy (a b : Nat) (peer_busy : s.portIdle p.peer = false) :
    exec (.clear p a b) s = .fault .peerInFlight := by
  rw [exec, execClear, State.accept_of_idle _ idle, State.whenPeerIdle_of_busy _ peer_busy]

variable (peer_idle : s.portIdle p.peer = true)
include peer_idle

theorem exec_init_of_valid {cap base : Nat} (valid : validConfig s.cfg base cap = true) :
    exec (.init p cap base) s = .next ((s.bindRegion base cap).respond p .ok 0 []) := by
  rw [exec, execInit, State.accept_of_idle _ idle, State.whenPeerIdle_of_idle _ peer_idle, if_pos valid]

theorem exec_init_of_invalid {cap base : Nat} (invalid : ¬validConfig s.cfg base cap = true) :
    exec (.init p cap base) s = .next (s.respond p .invalidConfiguration 0 []) := by
  rw [exec, execInit, State.accept_of_idle _ idle, State.whenPeerIdle_of_idle _ peer_idle, if_neg invalid]

theorem exec_clear_of_active (a b : Nat) (active : s.active = true) :
    exec (.clear p a b) s = .next (s.zeroIndices.respond p .ok 0 []) := by
  rw [exec, execClear, State.accept_of_idle _ idle, State.whenPeerIdle_of_idle _ peer_idle,
    State.whenActive_of_active _ active]

theorem exec_clear_of_inactive (a b : Nat) (inactive : s.active = false) :
    exec (.clear p a b) s = .next (s.respond p .notActive 0 []) := by
  rw [exec, execClear, State.accept_of_idle _ idle, State.whenPeerIdle_of_idle _ peer_idle,
    State.whenActive_of_inactive _ inactive]

end

/-- A second `CLEAR` answers like the first, on any port, and only lengthens a response log. -/
theorem exec_clear_clear {s : State} (quiescent : s.quiescent = true) (active : s.active = true) (p q : Port)
    (a b c d : Nat) :
    exec (.clear p a b) s = .next (s.zeroIndices.respond p .ok 0 []) ∧
      exec (.clear q c d) (s.zeroIndices.respond p .ok 0 []) =
        .next ((s.zeroIndices.respond p .ok 0 []).respond q .ok 0 []) := by
  have idle := State.portIdle_of_quiescent quiescent
  refine ⟨exec_clear_of_active (idle p) (idle p.peer) a b active, ?_⟩
  rw [exec_clear_of_active (by simp [idle]) (by simp [idle]) c d (by simp [active]), State.zeroIndices_respond,
    State.zeroIndices_zeroIndices]

/-- A second `INIT` with the operands of a successful one succeeds too, on any port, and only lengthens a response
log. -/
theorem exec_init_init {s : State} (quiescent : s.quiescent = true) {cap base : Nat}
    (valid : validConfig s.cfg base cap = true) (p q : Port) :
    exec (.init p cap base) s = .next ((s.bindRegion base cap).respond p .ok 0 []) ∧
      exec (.init q cap base) ((s.bindRegion base cap).respond p .ok 0 []) =
        .next (((s.bindRegion base cap).respond p .ok 0 []).respond q .ok 0 []) := by
  have idle := State.portIdle_of_quiescent quiescent
  refine ⟨exec_init_of_valid (idle p) (idle p.peer) valid, ?_⟩
  rw [exec_init_of_valid (by simp [idle]) (by simp [idle]) (by simpa using valid), State.bindRegion_respond,
    State.bindRegion_bindRegion]

/-- Settles O14: the second command only responds once more, which no output shows. -/
theorem configIdempotent : Obligations.ConfigIdempotent := by
  unfold Obligations.ConfigIdempotent
  intro s p q a b c d quiescent
  constructor
  · intro active
    obtain ⟨first, second⟩ := exec_clear_clear quiescent active p q a b c d
    exact ⟨_, _, first, second, by simp, by simp, State.dataCount_of_indices_eq (by simp), by simp⟩
  · intro valid
    obtain ⟨first, second⟩ := exec_init_init quiescent valid p q
    exact ⟨_, _, first, second, by simp, by simp⟩

/-- Settles O11: the three tests of R66 are `validConfig`; a valid region has at least two slots, so the new buffer is
empty and not full. -/
theorem initBindsOrChangesNothing : Obligations.InitBindsOrChangesNothing := by
  unfold Obligations.InitBindsOrChangesNothing
  intro s p cap base idle peer_idle
  rw [← validConfig_iff]
  refine ⟨fun valid => ?_, exec_init_of_invalid idle peer_idle⟩
  obtain ⟨two_le, -, -⟩ := (validConfig_iff s.cfg base cap).1 valid
  exact ⟨_, exec_init_of_valid idle peer_idle valid, rfl, State.empty_of_indices_eq (by simp),
    State.full_of_indices_zero (by simp) (by simpa using two_le) (by simp) (by simp)⟩

/-- Settles O12: the indices are both 0 after an effective `CLEAR`, so the buffer is empty, and not full if it has two
slots. -/
theorem clearZeroes : Obligations.ClearZeroes := by
  unfold Obligations.ClearZeroes
  intro s p a b idle peer_idle
  refine ⟨fun active => ?_, exec_clear_of_inactive idle peer_idle a b⟩
  exact ⟨_, exec_clear_of_active idle peer_idle a b active, rfl, State.empty_of_indices_eq (by simp),
    fun two_le => State.full_of_indices_zero (by simpa using active) (by simpa using two_le) (by simp) (by simp)⟩

/-- Settles O13: the guard on the peer comes before every test of an operand or of `active`. -/
theorem configNeedsQuiescentPeer : Obligations.ConfigNeedsQuiescentPeer := by
  unfold Obligations.ConfigNeedsQuiescentPeer
  intro s p a b idle peer_busy
  exact ⟨exec_init_of_peer_busy idle a b peer_busy, exec_clear_of_peer_busy idle a b peer_busy⟩

end Sys2Proof.Machine
end

section
/-! `DATA_COUNT` and `SPACE_COUNT` (41_query_ops.md R71, R72, R76). -/

namespace Sys2Proof.Machine

/-! The two values of the difference that the flags test for. -/

theorem diff_eq_zero_iff {w r cap : Nat} (hr : r < cap) : diff w r cap = 0 ↔ w = r := by
  unfold diff
  split <;> omega

/-- The difference is largest when the write index is one slot short of the read index (R20, R71). -/
theorem diff_eq_max_iff {w r cap : Nat} (hw : w < cap) (hr : r < cap) : diff w r cap = cap - 1 ↔ adv w 1 cap = r := by
  unfold diff adv
  split <;> split <;> omega

/-! The flags of an active buffer in terms of the counts. -/

theorem State.dataCount_le {s : State} (write_lt : s.writeIndex < s.capacitySlots) :
    s.dataCount ≤ s.capacitySlots - 1 :=
  Nat.le_sub_one_of_lt (diff_lt write_lt)

theorem State.empty_iff_dataCount {s : State} (active : s.active = true) (read_lt : s.readIndex < s.capacitySlots) :
    s.empty = true ↔ s.dataCount = 0 := by
  rw [State.empty_eq_ite, if_pos active, decide_eq_true_iff, State.dataCount, diff_eq_zero_iff read_lt]

theorem State.full_iff_dataCount {s : State} (active : s.active = true) (write_lt : s.writeIndex < s.capacitySlots)
    (read_lt : s.readIndex < s.capacitySlots) : s.full = true ↔ s.dataCount = s.capacitySlots - 1 := by
  rw [State.full_eq_ite, if_pos active, decide_eq_true_iff, State.dataCount, diff_eq_max_iff write_lt read_lt]

/-- There is no space exactly at the largest data count (R72). -/
theorem State.spaceCount_eq_zero_iff {s : State} (write_lt : s.writeIndex < s.capacitySlots) :
    s.spaceCount = 0 ↔ s.dataCount = s.capacitySlots - 1 := by
  rw [State.spaceCount, Nat.sub_eq_zero_iff_le]
  exact (State.dataCount_le write_lt).ge_iff_eq

/-- R72 over the integers: the natural-number subtraction cuts nothing off at 0. -/
theorem State.spaceCount_cast {s : State} (write_lt : s.writeIndex < s.capacitySlots) :
    (s.spaceCount : ℤ) = s.capacitySlots - 1 - s.dataCount := by
  have data_le := State.dataCount_le write_lt
  rw [State.spaceCount]
  omega

/-! The meaning of each query, one lemma per answer. -/

section
variable {s : State} {p : Port} (idle : s.portIdle p = true)
include idle

theorem exec_dataCount_of_active (a b : Nat) (active : s.active = true) :
    exec (.dataCount p a b) s = .next (s.respond p .ok s.dataCount []) := by
  rw [exec, execDataCount, State.accept_of_idle _ idle, State.whenActive_of_active _ active]

theorem exec_dataCount_of_inactive (a b : Nat) (inactive : s.active = false) :
    exec (.dataCount p a b) s = .next (s.respond p .notActive 0 []) := by
  rw [exec, execDataCount, State.accept_of_idle _ idle, State.whenActive_of_inactive _ inactive]

theorem exec_spaceCount_of_active (a b : Nat) (active : s.active = true) :
    exec (.spaceCount p a b) s = .next (s.respond p .ok s.spaceCount []) := by
  rw [exec, execSpaceCount, State.accept_of_idle _ idle, State.whenActive_of_active _ active]

theorem exec_spaceCount_of_inactive (a b : Nat) (inactive : s.active = false) :
    exec (.spaceCount p a b) s = .next (s.respond p .notActive 0 []) := by
  rw [exec, execSpaceCount, State.accept_of_idle _ idle, State.whenActive_of_inactive _ inactive]

end

/-- Settles O15: the value is the data count, which is the residue of R35 and is largest exactly when `FULL`. -/
theorem dataCountIsDifferenceModCapacity : Obligations.DataCountIsDifferenceModCapacity := by
  unfold Obligations.DataCountIsDifferenceModCapacity
  intro s p a b idle
  refine ⟨exec_dataCount_of_inactive idle a b, fun active _ write_lt read_lt => ?_⟩
  exact ⟨s.dataCount, diff_eq_emod write_lt read_lt, exec_dataCount_of_active idle a b active,
    State.dataCount_le write_lt, (State.full_iff_dataCount active write_lt read_lt).symm⟩

/-- Settles O16: the data count is at most `capacity_slots - 1`, so the value is the integer difference. -/
theorem spaceCountIsTheRest : Obligations.SpaceCountIsTheRest := by
  unfold Obligations.SpaceCountIsTheRest
  intro s p a b idle
  refine ⟨exec_spaceCount_of_inactive idle a b, fun active _ write_lt read_lt => ?_⟩
  refine ⟨s.spaceCount, ?_, exec_spaceCount_of_active idle a b active, Nat.sub_le _ _⟩
  rw [State.spaceCount_cast write_lt, State.dataCount, diff_eq_emod write_lt read_lt]

/-- Settles O18: the flags of an active buffer are tests of its counts, and with two slots or more 0 is not the largest
data count; an inactive buffer shows both flags, and both queries answer 0. -/
theorem flagsAgreeWithCounts : Obligations.FlagsAgreeWithCounts := by
  unfold Obligations.FlagsAgreeWithCounts
  intro s active_ok
  cases active : s.active with
  | false =>
    have empty := State.empty_of_inactive active
    have full := State.full_of_inactive active
    refine ⟨fun _ => ⟨empty, full⟩, nofun, fun p a b idle => ?_⟩
    exact ⟨_, _, _, exec_dataCount_of_inactive idle a b active, exec_spaceCount_of_inactive idle a b active,
      iff_of_true empty rfl, iff_of_true full rfl⟩
  | true =>
    obtain ⟨two_le, -, -, write_lt, read_lt⟩ := active_ok active
    have empty_iff := State.empty_iff_dataCount active read_lt
    have full_iff := State.full_iff_dataCount active write_lt read_lt
    have full_iff_space := full_iff.trans (State.spaceCount_eq_zero_iff write_lt).symm
    have not_both : ¬(s.empty = true ∧ s.full = true) := by
      rw [empty_iff, full_iff]
      omega
    refine ⟨nofun, fun _ => ⟨empty_iff, full_iff_space, full_iff, not_both⟩, fun p a b idle => ?_⟩
    exact ⟨_, _, _, exec_dataCount_of_active idle a b active, exec_spaceCount_of_active idle a b active, empty_iff,
      full_iff_space⟩

end Sys2Proof.Machine
end

section
/-! The first and last steps of `WRITE` and `READ` (42_transfer_ops.md R79, R81, R86, R88). -/

namespace Sys2Proof.Machine

/-! `WRITE` on port `P`, one lemma per answer of step W1, in the order of its checks (R79, R99). -/

section
variable {s : State} (idle : s.portIdle .P = true)
include idle

theorem exec_write_of_inactive (n b : Nat) (src : List Byte) (inactive : s.active = false) :
    exec (.write .P n b src) s = .next (s.respond .P .notActive 0 []) := by
  rw [exec, execWrite, State.accept_of_idle _ idle]
  exact State.whenActive_of_inactive _ inactive

variable (active : s.active = true)
include active

theorem exec_write_zero (b : Nat) (src : List Byte) :
    exec (.write .P 0 b src) s = .next (s.respond .P .ok 0 []) := by
  rw [exec, execWrite, State.accept_of_idle _ idle]
  exact State.whenActive_of_active _ active

theorem exec_write_of_ne_zero {n : Nat} (b : Nat) (src : List Byte) (n_ne : n ≠ 0) :
    exec (.write .P n b src) s = .next (s.beginWrite n src) := by
  rw [exec, execWrite, State.accept_of_idle _ idle]
  exact (State.whenActive_of_active _ active).trans (if_neg n_ne)

end

/-! `READ` on port `C`, one lemma per answer of step R1, in the order of its checks (R86, R99). -/

section
variable {s : State} (idle : s.portIdle .C = true)
include idle

theorem exec_read_of_inactive (n b : Nat) (inactive : s.active = false) :
    exec (.read .C n b) s = .next (s.respond .C .notActive 0 []) := by
  rw [exec, execRead, State.accept_of_idle _ idle]
  exact State.whenActive_of_inactive _ inactive

variable (active : s.active = true)
include active

theorem exec_read_zero (b : Nat) : exec (.read .C 0 b) s = .next (s.respond .C .ok 0 []) := by
  rw [exec, execRead, State.accept_of_idle _ idle]
  exact State.whenActive_of_active _ active

theorem exec_read_of_ne_zero {n : Nat} (b : Nat) (n_ne : n ≠ 0) :
    exec (.read .C n b) s =
      if s.dataCount = 0 then .next (s.respond .C .ok 0 []) else .next (s.beginRead n) := by
  rw [exec, execRead, State.accept_of_idle _ idle]
  exact (State.whenActive_of_active _ active).trans (if_neg n_ne)

/-- A `READ` with nothing to return ends at its first step, whether it asks for no byte or finds none (R86). -/
theorem exec_read_of_nothing {n : Nat} (b : Nat) (nothing : n = 0 ∨ s.dataCount = 0) :
    exec (.read .C n b) s = .next (s.respond .C .ok 0 []) := by
  obtain rfl | n_ne := eq_or_ne n 0
  · exact exec_read_zero idle active b
  · rw [exec_read_of_ne_zero idle active b n_ne, if_pos (nothing.resolve_left n_ne)]

theorem exec_read_of_data {n : Nat} (b : Nat) (n_ne : n ≠ 0) (data_ne : s.dataCount ≠ 0) :
    exec (.read .C n b) s = .next (s.beginRead n) := by
  rw [exec_read_of_ne_zero idle active b n_ne, if_neg data_ne]

end

/-! The turn of a port whose transfer is ready to publish (R44). -/

theorem runEvent_turn_of_write_publish {s : State} {f : WriteFlight} (h : s.portP = .publish f) :
    runEvent (.turn .P) s = writePublish f s := by
  rw [runEvent, turn, turnP, h]

theorem runEvent_turn_of_read_publish {s : State} {f : ReadFlight} (h : s.portC = .publish f) :
    runEvent (.turn .C) s = readPublish f s := by
  rw [runEvent, turn, turnC, h]

/-- Settles O25: the space that R79 computes is the space count of the descriptor, and `beginWrite` samples it. -/
theorem writeSamples : Obligations.WriteSamples := by
  unfold Obligations.WriteSamples
  intro s n b src idle
  rw [← State.portIdle_P] at idle
  refine ⟨exec_write_of_inactive idle n b src, ?_, ?_⟩
  · rintro active rfl
    exact exec_write_zero idle active b src
  · rintro active n_ne space k rfl rfl
    exact exec_write_of_ne_zero idle active b src n_ne

/-- Settles O27: the port's turn is step W3, whose counter update is the saturating sum of R7. -/
theorem writePublishes : Obligations.WritePublishes := by
  unfold Obligations.WritePublishes
  intro s f publishing
  rw [runEvent_turn_of_write_publish publishing, writePublish, satAdd]

/-- Settles O28: the data that R86 computes is the data count of the descriptor, and `beginRead` samples it. -/
theorem readSamples : Obligations.ReadSamples := by
  unfold Obligations.ReadSamples
  intro s n b idle
  rw [← State.portIdle_C] at idle
  refine ⟨exec_read_of_inactive idle n b, ?_⟩
  rintro active data rfl
  exact ⟨exec_read_of_nothing idle active b, exec_read_of_data idle active b⟩

/-- Settles O30: the port's turn is step R3. -/
theorem readPublishes : Obligations.ReadPublishes := by
  unfold Obligations.ReadPublishes
  intro s f publishing
  rw [runEvent_turn_of_read_publish publishing, readPublish]

end Sys2Proof.Machine
end

section
/-! The command and response words (30_encoding.md R53 to R61). -/

namespace Sys2Proof

/-! What the opcode map makes of an `op` value and the other fields (R54). -/

@[simp] theorem instrOf_port (op : Fin 8) (p : Port) (a b : Nat) (src : List Byte) :
    (instrOf op p a b src).port = p := by fin_cases op <;> rfl

@[simp] theorem instrOf_opcode (op : Fin 8) (p : Port) (a b : Nat) (src : List Byte) :
    (instrOf op p a b src).opcode = op := by fin_cases op <;> rfl

@[simp] theorem instrOf_arg0 (op : Fin 8) (p : Port) (a b : Nat) (src : List Byte) :
    (instrOf op p a b src).arg0 = a := by fin_cases op <;> rfl

@[simp] theorem instrOf_arg1 (op : Fin 8) (p : Port) (a b : Nat) (src : List Byte) :
    (instrOf op p a b src).arg1 = b := by fin_cases op <;> rfl

/-- Only `op` 4, a `WRITE`, calls for payload bytes (R61). -/
@[simp] theorem instrOf_payloadBytes (op : Fin 8) (p : Port) (a b : Nat) (src : List Byte) :
    (instrOf op p a b src).payloadBytes = if (op : Nat) = 4 then a else 0 := by fin_cases op <;> rfl

@[simp] theorem instrOf_payload (op : Fin 8) (p : Port) (a b : Nat) (src : List Byte) :
    (instrOf op p a b src).payload = if (op : Nat) = 4 then src else [] := by fin_cases op <;> rfl

theorem Instr.opcode_lt (i : Instr) : i.opcode < 8 := by cases i <;> simp [Instr.opcode]

/-- A command is determined by its operation code and its fields. -/
theorem instrOf_of_fields {op : Fin 8} {i : Instr} (h : (op : Nat) = i.opcode) :
    instrOf op i.port i.arg0 i.arg1 i.payload = i := by
  obtain rfl : op = ⟨i.opcode, i.opcode_lt⟩ := Fin.ext h
  cases i <;> rfl

@[simp] theorem opField_val (word : Nat) : (opField word : Nat) = word % 8 := rfl

/-! The decoder, as an equivalence. -/

theorem decode_eq_ok_iff {c : Config} {p : Port} {cmd : Command} {i : Instr} :
    decode c p cmd = .ok i ↔
      cmd.word < 2 ^ commandBits c ∧
        i = instrOf (opField cmd.word) p (arg0Field c cmd.word) (arg1Field c cmd.word) cmd.payload ∧
        cmd.payload.length = i.payloadBytes := by
  unfold decode
  split
  · next fits =>
    dsimp only
    split
    · next len =>
      constructor
      · intro h
        cases h
        exact ⟨fits, rfl, len⟩
      · rintro ⟨-, rfl, -⟩
        rfl
    · next len =>
      refine ⟨nofun, ?_⟩
      rintro ⟨-, rfl, h⟩
      exact absurd h len
  · next wide => exact ⟨nofun, fun h => absurd h.1 wide⟩

theorem fieldsReadBack (i : Instr) : Laws.FieldsReadBack.Statement i := by
  cases i with
  | init p a b => exact Laws.FieldsReadBack.init p a b
  | clear p a b => exact Laws.FieldsReadBack.clear p a b
  | dataCount p a b => exact Laws.FieldsReadBack.dataCount p a b
  | spaceCount p a b => exact Laws.FieldsReadBack.spaceCount p a b
  | write p a b src => exact Laws.FieldsReadBack.write p a b src
  | read p a b => exact Laws.FieldsReadBack.read p a b
  | reserved6 p a b => exact Laws.FieldsReadBack.reserved6 p a b
  | reserved7 p a b => exact Laws.FieldsReadBack.reserved7 p a b

/-- Settles O2: the fields are read back from the word, and they determine the command. -/
theorem decodeOfEncode : Obligations.DecodeOfEncode := by
  unfold Obligations.DecodeOfEncode
  intro c i wf
  obtain ⟨op_eq, arg0_eq, arg1_eq, fits⟩ := fieldsReadBack i c wf
  obtain ⟨-, -, payload_fits⟩ := wf
  refine decode_eq_ok_iff.2 ⟨fits, ?_, payload_fits⟩
  rw [arg0_eq, arg1_eq]
  exact (instrOf_of_fields op_eq).symm

/-- A word of `3 + W + A` bits is its three fields laid side by side (R53). -/
theorem word_eq_fields {c : Config} {word : Nat} (fits : word < 2 ^ commandBits c) :
    word % 8 + arg0Field c word * 2 ^ 3 + arg1Field c word * 2 ^ (c.W + 3) = word := by
  have top_fits : word / 2 ^ (c.W + 3) < 2 ^ c.A := by
    rw [Nat.div_lt_iff_lt_mul (Nat.two_pow_pos _), ← pow_add]
    exact lt_of_lt_of_eq fits (congrArg (2 ^ ·) (by rw [commandBits]; omega))
  have top : word / 2 ^ (c.W + 3) = word / 2 ^ 3 / 2 ^ c.W := by
    rw [Nat.div_div_eq_div_mul, ← pow_add, Nat.add_comm]
  have middle := Nat.mod_add_div (word / 2 ^ 3) (2 ^ c.W)
  have low := Nat.mod_add_div word 8
  rw [arg1Field, Nat.mod_eq_of_lt top_fits, top, arg0Field, pow_add 2 c.W 3]
  calc word % 8 + word / 2 ^ 3 % 2 ^ c.W * 2 ^ 3 + word / 2 ^ 3 / 2 ^ c.W * (2 ^ c.W * 2 ^ 3)
      = word % 8 + 8 * (word / 2 ^ 3 % 2 ^ c.W + 2 ^ c.W * (word / 2 ^ 3 / 2 ^ c.W)) := by ring
    _ = word := by rw [middle]; exact low

/-- What decodes has the payload of the command it decodes to: no command but a `WRITE` accepts any bytes. -/
theorem decode_payload {c : Config} {p : Port} {cmd : Command} {i : Instr} (h : decode c p cmd = .ok i) :
    i.payload = cmd.payload := by
  obtain ⟨-, rfl, len⟩ := decode_eq_ok_iff.1 h
  rw [instrOf_payloadBytes] at len
  rw [instrOf_payload]
  split at len
  · next write => rw [if_pos write]
  · next other => rw [if_neg other, List.length_eq_zero_iff.1 len]

theorem decode_port {c : Config} {p : Port} {cmd : Command} {i : Instr} (h : decode c p cmd = .ok i) : i.port = p := by
  obtain ⟨-, rfl, -⟩ := decode_eq_ok_iff.1 h
  exact instrOf_port ..

theorem decode_wellFormed {c : Config} {p : Port} {cmd : Command} {i : Instr} (h : decode c p cmd = .ok i) :
    i.WellFormed c := by
  have payload := decode_payload h
  obtain ⟨-, rfl, len⟩ := decode_eq_ok_iff.1 h
  refine ⟨?_, ?_, ?_⟩
  · rw [Instr.Arg0Fits, instrOf_arg0]
    exact Nat.mod_lt _ (Nat.two_pow_pos _)
  · rw [Instr.Arg1Fits, instrOf_arg1]
    exact Nat.mod_lt _ (Nat.two_pow_pos _)
  · rw [Instr.PayloadFits, payload, len]

theorem encode_decode {c : Config} {p : Port} {cmd : Command} {i : Instr} (h : decode c p cmd = .ok i) :
    encode c i = cmd := by
  have payload := decode_payload h
  obtain ⟨fits, rfl, -⟩ := decode_eq_ok_iff.1 h
  rw [encode, payload, instrOf_opcode, instrOf_arg0, instrOf_arg1, opField_val, word_eq_fields fits]

/-- Settles O3: the fields of a word make it up, and its payload is the command's. -/
theorem encodeOfDecode : Obligations.EncodeOfDecode := by
  unfold Obligations.EncodeOfDecode
  intro c p cmd i h
  exact ⟨decode_wellFormed h, decode_port h, encode_decode h⟩

/-- Settles O4: the row that the `op` field names calls for exactly the payload that the word calls for. -/
theorem everyWordDecodes : Obligations.EveryWordDecodes := by
  unfold Obligations.EveryWordDecodes
  intro c p word src fits len
  have ok : decode c p ⟨word, src⟩ = .ok (instrOf (opField word) p (arg0Field c word) (arg1Field c word) src) :=
    decode_eq_ok_iff.2 ⟨fits, rfl, by rw [instrOf_payloadBytes]; exact len⟩
  exact ⟨_, ok, decode_port ok, instrOf_opcode .., instrOf_arg0 .., instrOf_arg1 .., decode_payload ok⟩

/-- Settles O1: each word evaluates to its command. -/
theorem sampleWordsDecode : Obligations.SampleWordsDecode := by
  unfold Obligations.SampleWordsDecode
  exact ⟨rfl, rfl, rfl, rfl, rfl, rfl, rfl, rfl⟩

/-! Response words (R56, R57). -/

theorem Status.code_lt (st : Status) : st.code < 4 := by cases st <;> decide

theorem Status.ofCode_of_code {st : Status} {n : Fin 4} (h : (n : Nat) = st.code) : Status.ofCode n = st := by
  obtain rfl : n = ⟨st.code, st.code_lt⟩ := Fin.ext h
  cases st <;> rfl

/-- Settles O5: the status is the word's low two bits, the value the bits above them. -/
theorem responseWordRoundTrip : Obligations.ResponseWordRoundTrip := by
  unfold Obligations.ResponseWordRoundTrip
  intro c v bs fits
  refine ⟨rfl, rfl, rfl, rfl, fun st => ?_⟩
  have code_lt := st.code_lt
  have word_eq : Response.word ⟨st, v, bs⟩ = st.code + v * 4 := rfl
  constructor
  · rw [word_eq, pow_add]
    omega
  · have value_eq : (st.code + v * 4) / 2 ^ 2 % 2 ^ c.W = v := by
      rw [show (st.code + v * 4) / 2 ^ 2 = v by omega, Nat.mod_eq_of_lt fits]
    have status_eq : Status.ofCode (Fin.ofNat 4 (st.code + v * 4)) = st :=
      Status.ofCode_of_code (show (st.code + v * 4) % 4 = st.code by omega)
    rw [decodeResponse, word_eq, value_eq, status_eq]

end Sys2Proof
end

section
/-! The slots of the buffer: how advances and differences compose, and which slots a copy visits (20_memory.md R35 to
R38). -/

namespace Sys2Proof.Machine

/-! Advances and differences undo and compose with each other. -/

theorem adv_adv {idx j k cap : Nat} (hi : idx < cap) (h : j + k ≤ cap) :
    adv (adv idx j cap) k cap = adv idx (j + k) cap := by
  unfold adv
  split <;> split <;> split <;> omega

theorem adv_diff {w r cap : Nat} (hw : w < cap) (hr : r < cap) : adv r (diff w r cap) cap = w := by
  unfold adv diff
  split <;> split <;> omega

theorem diff_adv {idx k cap : Nat} (hi : idx < cap) (hk : k < cap) : diff (adv idx k cap) idx cap = k := by
  unfold adv diff
  split <;> split <;> omega

theorem adv_inj {idx j k cap : Nat} (hi : idx < cap) (hj : j < cap) (hk : k < cap)
    (h : adv idx j cap = adv idx k cap) : j = k := by
  rw [← diff_adv hi hj, h, diff_adv hi hk]

/-- Advancing the write index adds to the difference (R81). -/
theorem diff_adv_left {w r k cap : Nat} (hw : w < cap) (hr : r < cap) (h : diff w r cap + k < cap) :
    diff (adv w k cap) r cap = diff w r cap + k := by
  have w_eq := adv_diff hw hr
  rw [← diff_adv hr h, ← adv_adv hr h.le, w_eq]

/-- Advancing the read index takes from the difference (R88). -/
theorem diff_adv_right {w r k cap : Nat} (hw : w < cap) (hr : r < cap) (h : k ≤ diff w r cap) :
    diff w (adv r k cap) cap = diff w r cap - k := by
  have lt := diff_lt (r := r) hw
  have w_eq : adv (adv r k cap) (diff w r cap - k) cap = w := by
    rw [adv_adv hr (by omega), Nat.add_sub_cancel' h, adv_diff hw hr]
  conv_lhs => rw [← w_eq]
  exact diff_adv (adv_lt hr (by omega)) (by omega)

/-! The slots that a copy visits. -/

theorem mem_slotsFrom {off len cap x : Nat} : x ∈ slotsFrom off len cap ↔ ∃ j < len, adv off j cap = x := by
  simp [slotsFrom]

theorem length_slotsFrom (off len cap : Nat) : (slotsFrom off len cap).length = len := by simp [slotsFrom]

theorem slotsFrom_succ (off len cap : Nat) :
    slotsFrom off (len + 1) cap = slotsFrom off len cap ++ [adv off len cap] := by
  simp [slotsFrom, List.range_succ]

/-- A copy goes on where its first part ends. -/
theorem slotsFrom_add {off a b cap : Nat} (hoff : off < cap) (h : a + b ≤ cap) :
    slotsFrom off (a + b) cap = slotsFrom off a cap ++ slotsFrom (adv off a cap) b cap := by
  rw [slotsFrom, List.range_add, List.map_append, List.map_map, slotsFrom, slotsFrom]
  congr 1
  refine List.map_congr_left fun j hj => ?_
  rw [List.mem_range] at hj
  exact (adv_adv hoff (by omega)).symm

theorem nodup_slotsFrom {off len cap : Nat} (hoff : off < cap) (hlen : len ≤ cap) : (slotsFrom off len cap).Nodup := by
  refine List.Nodup.map_on (fun i hi j hj => ?_) List.nodup_range
  rw [List.mem_range] at hi hj
  exact adv_inj hoff (by omega) (by omega)

theorem slotsFrom_of_no_wrap {off len cap : Nat} (h : off + len ≤ cap) :
    slotsFrom off len cap = List.range' off len := by
  rw [slotsFrom, List.range'_eq_map_range]
  refine List.map_congr_left fun j hj => ?_
  rw [List.mem_range] at hj
  unfold adv
  split <;> omega

/-- The two segments of R37: up to the array's end, and from its start. -/
theorem slotsFrom_eq_segments {off len cap : Nat} (hoff : off < cap) (hlen : len ≤ cap) :
    slotsFrom off len cap =
      List.range' off (min len (cap - off)) ++ List.range (len - min len (cap - off)) := by
  obtain no_wrap | wraps := Nat.le_total len (cap - off)
  · rw [min_eq_left no_wrap, Nat.sub_self, List.range_zero, List.append_nil]
    exact slotsFrom_of_no_wrap (by omega)
  · have at_end : adv off (cap - off) cap = 0 := by rw [adv, if_pos (by omega)]; omega
    rw [min_eq_right wraps]
    calc slotsFrom off len cap
        = slotsFrom off (cap - off + (len - (cap - off))) cap := by rw [Nat.add_sub_cancel' wraps]
      _ = slotsFrom off (cap - off) cap ++ slotsFrom 0 (len - (cap - off)) cap := by
          rw [slotsFrom_add hoff (by omega), at_end]
      _ = List.range' off (cap - off) ++ List.range (len - (cap - off)) := by
          rw [slotsFrom_of_no_wrap (by omega), slotsFrom_of_no_wrap (by omega), ← List.range_eq_range']

/-- A copy of the whole capacity visits every slot. -/
theorem slotsFrom_cap_perm {off cap : Nat} (hoff : off < cap) : (slotsFrom off cap cap).Perm (List.range cap) := by
  rw [slotsFrom_eq_segments hoff le_rfl, min_eq_right (Nat.sub_le cap off), Nat.sub_sub_self hoff.le]
  have joined : List.range' 0 off ++ List.range' (0 + off) (cap - off) = List.range' 0 (off + (cap - off)) :=
    List.range'_append_1
  rw [Nat.zero_add, Nat.add_sub_cancel' hoff.le, ← List.range_eq_range', ← List.range_eq_range'] at joined
  exact joined ▸ List.perm_append_comm

/-- Settles O37: the second segment begins where the first ends, at slot 0. -/
theorem splitCoversTheCopy : Obligations.SplitCoversTheCopy := by
  unfold Obligations.SplitCoversTheCopy
  intro off len cap _ hoff hlen len1 len2 h
  obtain ⟨rfl, rfl⟩ := Prod.mk.inj h
  have len_le : len ≤ cap := hlen.trans (Nat.sub_le cap 1)
  exact ⟨rfl, by omega, by omega, slotsFrom_eq_segments hoff len_le, nodup_slotsFrom hoff len_le⟩

/-! The published, the producer's and the gap slot (R38). -/

theorem State.publishedSlots_eq (s : State) :
    s.publishedSlots = slotsFrom s.readIndex s.dataCount s.capacitySlots := rfl

theorem State.producerSlots_eq (s : State) :
    s.producerSlots = slotsFrom s.writeIndex s.spaceCount s.capacitySlots := rfl

section
variable {s : State} (ok : ActiveOk s)
include ok

theorem ActiveOk.dataCount_lt : s.dataCount < s.capacitySlots := diff_lt ok.write_lt

theorem ActiveOk.dataCount_add_spaceCount : s.dataCount + s.spaceCount = s.capacitySlots - 1 := by
  have := ok.dataCount_lt
  rw [State.spaceCount]
  omega

theorem ActiveOk.adv_dataCount : adv s.readIndex s.dataCount s.capacitySlots = s.writeIndex :=
  adv_diff ok.write_lt ok.read_lt

/-- The producer's slots follow the published ones. -/
theorem ActiveOk.slots_append :
    s.publishedSlots ++ s.producerSlots = slotsFrom s.readIndex (s.capacitySlots - 1) s.capacitySlots := by
  have two_le := ok.two_le_cap
  have sum := ok.dataCount_add_spaceCount
  rw [← sum, slotsFrom_add ok.read_lt (by omega), ok.adv_dataCount, State.publishedSlots_eq, State.producerSlots_eq]

/-- The gap slot is the last one that a walk over the whole capacity from the read index visits. -/
theorem ActiveOk.gapSlot_eq : s.gapSlot = adv s.readIndex (s.capacitySlots - 1) s.capacitySlots := by
  have two_le := ok.two_le_cap
  have sum := ok.dataCount_add_spaceCount
  rw [State.gapSlot, ← ok.adv_dataCount, adv_adv ok.read_lt (by omega), sum]

theorem ActiveOk.slots_perm :
    (s.publishedSlots ++ s.producerSlots ++ [s.gapSlot]).Perm (List.range s.capacitySlots) := by
  have two_le := ok.two_le_cap
  rw [ok.slots_append, ok.gapSlot_eq, ← slotsFrom_succ, Nat.sub_add_cancel (by omega)]
  exact slotsFrom_cap_perm ok.read_lt

/-- No published slot is the producer's. -/
theorem ActiveOk.not_mem_published {x : Nat} (h : x ∈ s.producerSlots) : x ∉ s.publishedSlots := by
  have nodup := ok.slots_append ▸ nodup_slotsFrom ok.read_lt (Nat.sub_le s.capacitySlots 1)
  exact fun h' => List.disjoint_of_nodup_append nodup h' h

end

/-- Settles O42: one walk over the capacity from the read index visits the published slots, the producer's and the gap
slot, in this order. -/
theorem slotsArePartitioned : Obligations.SlotsArePartitioned := by
  unfold Obligations.SlotsArePartitioned
  intro s ok
  have two_le := ok.two_le_cap
  refine ⟨ok.slots_perm, ?_⟩
  rw [ok.gapSlot_eq, adv_eq_mod ok.read_lt (Nat.sub_le _ _), Nat.add_sub_assoc (by omega)]

/-- Settles O17: the first query only lengthens a log, so the second one sees the same counts. -/
theorem countsSumToUsableCapacity : Obligations.CountsSumToUsableCapacity := by
  unfold Obligations.CountsSumToUsableCapacity
  intro s p q a b c d ok active idle_p idle_q
  have second := exec_spaceCount_of_active (s := s.respond p .ok s.dataCount []) (p := q) (by simpa using idle_q) c d
    (by simpa using active)
  exact ⟨s.dataCount, s.spaceCount, _, _, exec_dataCount_of_active idle_p a b active, second, by simp, by simp,
    ok.dataCount_add_spaceCount⟩

end Sys2Proof.Machine
end

section
/-! What a command's first step can do and what an event can do, each said once (20_memory.md R43, R44). -/

namespace Sys2Proof.Machine

/-! The turn of a port, by its phase. -/

theorem runEvent_turn_of_idle {s : State} {p : Port} (idle : s.portIdle p = true) :
    runEvent (.turn p) s = issueNext p s := by
  cases p with
  | P => rw [runEvent, turn, turnP, (State.portIdle_P s).1 idle]
  | C => rw [runEvent, turn, turnC, (State.portIdle_C s).1 idle]

theorem runEvent_turn_of_write_copy {s : State} {f : WriteFlight} (h : s.portP = .copy f) :
    runEvent (.turn .P) s = writeCopy f s := by
  rw [runEvent, turn, turnP, h]

theorem runEvent_turn_of_read_copy {s : State} {f : ReadFlight} (h : s.portC = .copy f) :
    runEvent (.turn .C) s = readCopy f s := by
  rw [runEvent, turn, turnC, h]

section
variable {s : State} {p : Port} {cmd : Command} {rest : List Command} (cmds : s.commands p = cmd :: rest)
include cmds

theorem issueNext_of_decodes {i : Instr} (h : decode s.cfg p cmd = .ok i) :
    issueNext p s = exec i (s.withCommands p rest) := by
  simp only [issueNext, cmds, h]

theorem issueNext_of_refused {why : DecodeError} (h : decode s.cfg p cmd = .error why) :
    issueNext p s = .refused (.notACommand why) := by
  simp only [issueNext, cmds, h]

end

/-- Settles O6: an idle port's turn is the decoding of its agent's next command. -/
theorem notACommandIsRefused : Obligations.NotACommandIsRefused := by
  unfold Obligations.NotACommandIsRefused
  intro s p cmd rest why idle cmds refused
  rw [runEvent_turn_of_idle idle, issueNext_of_refused cmds refused]

/-! The steps of a transfer that copy one byte, forwards (R80, R87). -/

theorem writeCopy_of_byte {s : State} {f : WriteFlight} {v : Byte} (byte : f.src[f.i]? = some v)
    (inside : s.writeAddress f < s.cfg.storageBytes) :
    writeCopy f s = .next { s with
      storage := s.storage.write (s.writeAddress f) v
      portP := if f.i + 1 = f.k then .publish { f with i := f.i + 1 } else .copy { f with i := f.i + 1 } } := by
  have byte_ok := WriteFlight.byte_ok.2 byte
  simp only [writeCopy, byte_ok, State.memWrite, if_pos inside, wordWrite_muxWrite]

theorem readCopy_of_inside {s : State} {f : ReadFlight} (inside : s.readAddress f < s.cfg.storageBytes) :
    readCopy f s = .next { s with
      portC :=
        if f.i + 1 = f.k then .publish { f with i := f.i + 1, dst := f.dst ++ [s.byteAt (s.readAddress f)] }
        else .copy { f with i := f.i + 1, dst := f.dst ++ [s.byteAt (s.readAddress f)] } } := by
  simp only [readCopy, State.memRead, if_pos inside, muxRead_eq_byteAt, State.byteAt]

/-- Settles O26: the mux stores one byte at the address that R80 computes, which is the flight's write address. -/
theorem writeCopiesOneByte : Obligations.WriteCopiesOneByte := by
  unfold Obligations.WriteCopiesOneByte
  intro s f v copying byte inside
  refine ⟨_, (runEvent_turn_of_write_copy copying).trans (writeCopy_of_byte byte inside), rfl, fun a => ?_⟩
  exact Memory.byteAt_write (s.writeAddress f) a v s.storage

/-- Settles O29: the mux reads one byte at the address that R87 computes, which is the flight's read address. -/
theorem readCopiesOneByte : Obligations.ReadCopiesOneByte := by
  unfold Obligations.ReadCopiesOneByte
  rintro s f copying inside dst rfl
  exact (runEvent_turn_of_read_copy copying).trans (readCopy_of_inside inside)

/-! The command that a port takes up. -/

theorem State.nextCommand_eq_some_iff {s : State} {p : Port} {i : Instr} :
    s.nextCommand p = some i ↔
      s.portIdle p = true ∧ ∃ cmd rest, s.commands p = cmd :: rest ∧ decode s.cfg p cmd = .ok i := by
  unfold State.nextCommand
  split
  · next idle =>
    split
    · next none_left => simp [none_left]
    · next cmd rest cmds =>
      split
      · next j ok => simp [idle, cmds, ok]
      · next why refused => simp [cmds, refused]
  · next busy => simp [busy]

section
variable {s : State} {p : Port} {i : Instr} (next : s.nextCommand p = some i)
include next

theorem State.portIdle_of_nextCommand : s.portIdle p = true := (State.nextCommand_eq_some_iff.1 next).1

theorem State.nextCommand_port : i.port = p := by
  obtain ⟨-, cmd, rest, -, ok⟩ := State.nextCommand_eq_some_iff.1 next
  exact decode_port ok

theorem State.nextCommand_wellFormed : i.WellFormed s.cfg := by
  obtain ⟨-, cmd, rest, -, ok⟩ := State.nextCommand_eq_some_iff.1 next
  exact decode_wellFormed ok

end

/-- The state in which the port's agent has handed over the first of its commands. -/
abbrev State.takeCommand (s : State) (p : Port) : State := s.withCommands p (s.commands p).tail

/-- A turn that takes up a command is that command's first step. -/
theorem runEvent_turn_of_nextCommand {s : State} {p : Port} {i : Instr} (next : s.nextCommand p = some i) :
    runEvent (.turn p) s = exec i (s.takeCommand p) := by
  obtain ⟨idle, cmd, rest, cmds, ok⟩ := State.nextCommand_eq_some_iff.1 next
  rw [runEvent_turn_of_idle idle, issueNext_of_decodes cmds ok, State.takeCommand, cmds, List.tail_cons]

/-- The command is a successful `INIT` or an effective `CLEAR` (R91). -/
def State.zeroedByCommand (s : State) : Instr → Bool
  | .init _ cap base => validConfig s.cfg base cap
  | .clear _ _ _ => s.active
  | .dataCount _ _ _ => false
  | .spaceCount _ _ _ => false
  | .write _ _ _ _ => false
  | .read _ _ _ => false
  | .reserved6 _ _ _ => false
  | .reserved7 _ _ _ => false

theorem State.zeroedBy_turn {s : State} {p : Port} {i : Instr} (next : s.nextCommand p = some i) :
    s.zeroedBy (.turn p) = s.zeroedByCommand i := by
  rw [State.zeroedBy, next]
  cases i <;> rfl

theorem State.zeroedBy_turn_of_busy {s : State} {p : Port} (busy : s.portIdle p = false) :
    s.zeroedBy (.turn p) = false := by
  rw [State.zeroedBy, State.nextCommand, busy]
  rfl

/-! What the first step of a command can do. -/

/-- The next states of a command's first step: it answers at once and does no more; or it binds a region, zeroes the
indices, or begins a transfer. -/
inductive ExecEffect (s : State) : Instr → State → Prop
  | answer {i : Instr} (st : Status) (v : Nat) (stays : s.zeroedByCommand i = false)
      (value : v = 0 ∨ st = .ok ∧ s.active = true ∧ (v = s.dataCount ∨ v = s.spaceCount)) :
      ExecEffect s i (s.respond i.port st v [])
  | bind {p : Port} {cap base : Nat} (peer_idle : s.portIdle p.peer = true)
      (valid : validConfig s.cfg base cap = true) :
      ExecEffect s (.init p cap base) ((s.bindRegion base cap).respond p .ok 0 [])
  | clear {p : Port} {a b : Nat} (peer_idle : s.portIdle p.peer = true) (active : s.active = true) :
      ExecEffect s (.clear p a b) (s.zeroIndices.respond p .ok 0 [])
  | beginWrite {n b : Nat} {src : List Byte} (active : s.active = true) (n_ne : n ≠ 0) :
      ExecEffect s (.write .P n b src) (s.beginWrite n src)
  | beginRead {n b : Nat} (active : s.active = true) (n_ne : n ≠ 0) (data_ne : s.dataCount ≠ 0) :
      ExecEffect s (.read .C n b) (s.beginRead n)

theorem exec_idle {i : Instr} {s t : State} (h : exec i s = .next t) : s.portIdle i.port = true := by
  cases i <;> exact (State.accept_next h).1

theorem exec_effect {i : Instr} {s t : State} (h : exec i s = .next t) : ExecEffect s i t := by
  cases i with
  | init p cap base =>
    obtain ⟨-, peer_idle, ⟨valid, rfl⟩ | ⟨invalid, rfl⟩⟩ := execInit_next h
    · exact .bind peer_idle valid
    · exact .answer _ _ invalid (.inl rfl)
  | clear p a b =>
    obtain ⟨-, peer_idle, ⟨active, rfl⟩ | ⟨inactive, rfl⟩⟩ := execClear_next h
    · exact .clear peer_idle active
    · exact .answer _ _ inactive (.inl rfl)
  | dataCount p a b =>
    obtain ⟨-, ⟨active, rfl⟩ | ⟨-, rfl⟩⟩ := execDataCount_next h
    · exact .answer _ _ rfl (.inr ⟨rfl, active, .inl rfl⟩)
    · exact .answer _ _ rfl (.inl rfl)
  | spaceCount p a b =>
    obtain ⟨-, ⟨active, rfl⟩ | ⟨-, rfl⟩⟩ := execSpaceCount_next h
    · exact .answer _ _ rfl (.inr ⟨rfl, active, .inr rfl⟩)
    · exact .answer _ _ rfl (.inl rfl)
  | write p n b src =>
    obtain ⟨-, ⟨rfl, rfl⟩ | ⟨rfl, -, rfl⟩ | ⟨rfl, -, -, rfl⟩ | ⟨rfl, active, n_ne, rfl⟩⟩ := execWrite_next h
    · exact .answer _ _ rfl (.inl rfl)
    · exact .answer _ _ rfl (.inl rfl)
    · exact .answer _ _ rfl (.inl rfl)
    · exact .beginWrite active n_ne
  | read p n b =>
    obtain ⟨-, ⟨rfl, rfl⟩ | ⟨rfl, -, rfl⟩ | ⟨rfl, -, -, rfl⟩ | ⟨rfl, active, n_ne, data_ne, rfl⟩⟩ := execRead_next h
    · exact .answer _ _ rfl (.inl rfl)
    · exact .answer _ _ rfl (.inl rfl)
    · exact .answer _ _ rfl (.inl rfl)
    · exact .beginRead active n_ne data_ne
  | reserved6 p a b =>
    obtain ⟨-, rfl⟩ := execReserved6_next h
    exact .answer _ _ rfl (.inl rfl)
  | reserved7 p a b =>
    obtain ⟨-, rfl⟩ := execReserved7_next h
    exact .answer _ _ rfl (.inl rfl)

/-! What an event can do. -/

/-- The next states of an event (R43): an observation, a reset, a turn without anything to do, the first step of a
command, or one of the steps W2, W3, R2, R3 of a transfer in flight. -/
inductive EventEffect (s : State) : Event → State → Prop
  | observe (agent : Port) : EventEffect s (.observe agent) (s.observe agent)
  | reset : EventEffect s .reset s.hostReset
  | nothing {p : Port} (idle : s.portIdle p = true) (none_left : s.commands p = []) : EventEffect s (.turn p) s
  | command {p : Port} {i : Instr} {t : State} (next : s.nextCommand p = some i)
      (effect : ExecEffect (s.takeCommand p) i t) : EventEffect s (.turn p) t
  | store {f : WriteFlight} {v : Byte} (copying : s.portP = .copy f) (byte : f.src[f.i]? = some v)
      (inside : s.writeAddress f < s.cfg.storageBytes) :
      EventEffect s (.turn .P) { s with
        storage := s.storage.write (s.writeAddress f) v
        portP := if f.i + 1 = f.k then .publish { f with i := f.i + 1 } else .copy { f with i := f.i + 1 } }
  | publishWrite {f : WriteFlight} (publishing : s.portP = .publish f) :
      EventEffect s (.turn .P) (State.respond { s with
        writeIndex := adv f.wr f.k s.capacitySlots
        overflowCount := satAdd s.cfg.ovfW s.overflowCount f.drop
        portP := .idle } .P .ok f.k [])
  | load {f : ReadFlight} (copying : s.portC = .copy f) (inside : s.readAddress f < s.cfg.storageBytes) :
      EventEffect s (.turn .C) { s with
        portC :=
          if f.i + 1 = f.k then .publish { f with i := f.i + 1, dst := f.dst ++ [s.byteAt (s.readAddress f)] }
          else .copy { f with i := f.i + 1, dst := f.dst ++ [s.byteAt (s.readAddress f)] } }
  | publishRead {f : ReadFlight} (publishing : s.portC = .publish f) :
      EventEffect s (.turn .C) (State.respond { s with
        readIndex := adv f.rd f.k s.capacitySlots
        portC := .idle } .C .ok f.k f.dst)

theorem issueNext_effect {p : Port} {s t : State} (idle : s.portIdle p = true) (h : issueNext p s = .next t) :
    EventEffect s (.turn p) t := by
  obtain ⟨none_left, rfl⟩ | ⟨cmd, rest, i, cmds, ok, run⟩ := issueNext_next h
  · exact .nothing idle none_left
  · have next := State.nextCommand_eq_some_iff.2 ⟨idle, cmd, rest, cmds, ok⟩
    rw [← runEvent_turn_of_idle idle, runEvent_turn_of_nextCommand next] at h
    exact .command next (exec_effect h)

theorem turnP_effect {s t : State} (h : runEvent (.turn .P) s = .next t) : EventEffect s (.turn .P) t := by
  cases phase : s.portP with
  | idle =>
    have idle := (State.portIdle_P s).2 phase
    exact issueNext_effect idle (runEvent_turn_of_idle idle ▸ h)
  | copy f =>
    rw [runEvent_turn_of_write_copy phase] at h
    obtain ⟨v, byte, inside, rfl⟩ := writeCopy_next h
    rw [wordWrite_muxWrite]
    exact .store phase byte inside
  | publish f =>
    rw [runEvent_turn_of_write_publish phase] at h
    cases h
    exact .publishWrite phase

theorem turnC_effect {s t : State} (h : runEvent (.turn .C) s = .next t) : EventEffect s (.turn .C) t := by
  cases phase : s.portC with
  | idle =>
    have idle := (State.portIdle_C s).2 phase
    exact issueNext_effect idle (runEvent_turn_of_idle idle ▸ h)
  | copy f =>
    rw [runEvent_turn_of_read_copy phase] at h
    obtain ⟨inside, rfl⟩ := readCopy_next h
    rw [muxRead_eq_byteAt]
    exact .load phase inside
  | publish f =>
    rw [runEvent_turn_of_read_publish phase] at h
    cases h
    exact .publishRead phase

theorem runEvent_effect {e : Event} {s t : State} (h : runEvent e s = .next t) : EventEffect s e t := by
  cases e with
  | turn p =>
    cases p with
    | P => exact turnP_effect h
    | C => exact turnC_effect h
  | observe agent =>
    cases h
    exact .observe agent
  | reset =>
    cases h
    exact .reset

end Sys2Proof.Machine
end

section
/-! What commands and events leave unchanged (10_state.md section 5, 20_memory.md R31, R34, 30_encoding.md R62,
42_transfer_ops.md R82, R83, R89). -/

namespace Sys2Proof.Machine

/-! The logs and lists of a port, through the updates. -/

@[simp] theorem State.observe_commands (s : State) (g q : Port) : (s.observe g).commands q = s.commands q := by
  cases q <;> rfl
@[simp] theorem State.hostReset_commands (s : State) (q : Port) : s.hostReset.commands q = s.commands q := by
  cases q <;> rfl
@[simp] theorem State.bindRegion_commands (s : State) (base cap : Nat) (q : Port) :
    (s.bindRegion base cap).commands q = s.commands q := by cases q <;> rfl
@[simp] theorem State.zeroIndices_commands (s : State) (q : Port) : s.zeroIndices.commands q = s.commands q := by
  cases q <;> rfl
@[simp] theorem State.beginWrite_commands (s : State) (n : Nat) (src : List Byte) (q : Port) :
    (s.beginWrite n src).commands q = s.commands q := by cases q <;> rfl
@[simp] theorem State.beginRead_commands (s : State) (n : Nat) (q : Port) :
    (s.beginRead n).commands q = s.commands q := by cases q <;> rfl

@[simp] theorem State.observe_responses (s : State) (g q : Port) : (s.observe g).responses q = s.responses q := by
  cases q <;> rfl
@[simp] theorem State.hostReset_responses (s : State) (q : Port) : s.hostReset.responses q = s.responses q := by
  cases q <;> rfl
@[simp] theorem State.bindRegion_responses (s : State) (base cap : Nat) (q : Port) :
    (s.bindRegion base cap).responses q = s.responses q := by cases q <;> rfl
@[simp] theorem State.zeroIndices_responses (s : State) (q : Port) : s.zeroIndices.responses q = s.responses q := by
  cases q <;> rfl
@[simp] theorem State.beginWrite_responses (s : State) (n : Nat) (src : List Byte) (q : Port) :
    (s.beginWrite n src).responses q = s.responses q := by cases q <;> rfl
@[simp] theorem State.beginRead_responses (s : State) (n : Nat) (q : Port) :
    (s.beginRead n).responses q = s.responses q := by cases q <;> rfl

/-- A byte is a function of the storage alone. -/
theorem State.byteAt_congr {s t : State} (h : t.storage = s.storage) (a : Nat) : t.byteAt a = s.byteAt a := by
  rw [State.byteAt, h, State.byteAt]

theorem State.portIdle_of_write_publish {s : State} {f : WriteFlight} (h : s.portP = .publish f) :
    s.portIdle .P = false := by simp [State.portIdle, WriteSeq.phase, h]

theorem State.portIdle_of_write_copy {s : State} {f : WriteFlight} (h : s.portP = .copy f) :
    s.portIdle .P = false := by simp [State.portIdle, WriteSeq.phase, h]

theorem State.portIdle_of_read_publish {s : State} {f : ReadFlight} (h : s.portC = .publish f) :
    s.portIdle .C = false := by simp [State.portIdle, ReadSeq.phase, h]

theorem State.portIdle_of_read_copy {s : State} {f : ReadFlight} (h : s.portC = .copy f) :
    s.portIdle .C = false := by simp [State.portIdle, ReadSeq.phase, h]

/-! What the first step of a command leaves unchanged. -/

section
variable {s t : State} {i : Instr} (effect : ExecEffect s i t)
include effect

/-- No command touches the storage, the parameters or anything of the run's inputs and observations. -/
theorem ExecEffect.surroundings :
    t.storage = s.storage ∧ t.cfg = s.cfg ∧ t.schedule = s.schedule ∧ t.choices = s.choices ∧
      t.observations = s.observations := by
  cases effect <;> simp

theorem ExecEffect.commands (q : Port) : t.commands q = s.commands q := by
  cases effect <;> simp

theorem ExecEffect.responses_of_ne {q : Port} (h : q ≠ i.port) : t.responses q = s.responses q := by
  cases effect <;> simp_all [Instr.port]

theorem ExecEffect.portP (h : i.port = .C ∨ i.opcode ≠ 4) : t.portP = s.portP := by
  cases effect <;> simp_all [Instr.port, Instr.opcode]

theorem ExecEffect.portC (h : i.port = .P ∨ i.opcode ≠ 5) : t.portC = s.portC := by
  cases effect <;> simp_all [Instr.port, Instr.opcode]

/-- Only `INIT` binds. -/
theorem ExecEffect.binding (h : i.opcode ≠ 0) :
    t.capacitySlots = s.capacitySlots ∧ t.storageBase = s.storageBase ∧ t.active = s.active := by
  cases effect <;> simp_all [Instr.opcode]

/-- A command that zeroes the buffer sets both indices and the counter to 0. -/
theorem ExecEffect.zeros (h : s.zeroedByCommand i = true) :
    t.writeIndex = 0 ∧ t.readIndex = 0 ∧ t.overflowCount = 0 := by
  cases effect with
  | answer st v stays => simp [stays] at h
  | bind => simp
  | clear => simp
  | beginWrite => cases h
  | beginRead => cases h

/-- Every other command leaves the registers alone. -/
theorem ExecEffect.registers (h : s.zeroedByCommand i = false) :
    t.statusOutputs = s.statusOutputs ∧ t.storageBase = s.storageBase := by
  cases effect with
  | answer => simp
  | bind _ valid => exact absurd (valid.symm.trans h) (by decide)
  | clear _ active => exact absurd (active.symm.trans h) (by decide)
  | beginWrite => exact ⟨rfl, rfl⟩
  | beginRead => exact ⟨rfl, rfl⟩

end

/-- Only `INIT` and `CLEAR` zero the buffer. -/
theorem State.zeroedByCommand_eq_false {s : State} {i : Instr} (init : i.opcode ≠ 0) (clear : i.opcode ≠ 1) :
    s.zeroedByCommand i = false := by
  cases i with
  | init => exact absurd rfl init
  | clear => exact absurd rfl clear
  | _ => rfl

/-- Settles O41: the frame of the one step that a command can take. -/
theorem commandFrame : Obligations.CommandFrame := by
  unfold Obligations.CommandFrame
  intro i s t h
  have effect := exec_effect h
  obtain ⟨storage, cfg, schedule, choices, observations⟩ := effect.surroundings
  refine ⟨State.byteAt_congr storage, cfg, schedule, choices, observations, effect.commands .P, effect.commands .C,
    fun on_P => ⟨effect.portC (.inl on_P), effect.responses_of_ne (q := .C) (by simp [on_P])⟩,
    fun on_C => ⟨effect.portP (.inl on_C), effect.responses_of_ne (q := .P) (by simp [on_C])⟩,
    fun op => effect.portP (.inr op), fun op => effect.portC (.inr op), effect.binding, fun init clear => ?_⟩
  obtain ⟨outputs, -⟩ := effect.registers (State.zeroedByCommand_eq_false init clear)
  exact ⟨congrArg StatusOutputs.writeIndex outputs, congrArg StatusOutputs.readIndex outputs,
    congrArg StatusOutputs.overflowCount outputs⟩

/-! What an event leaves unchanged. -/

@[simp] theorem State.withCommands_statusOutputs (s : State) (p : Port) (cs : List Command) :
    (s.withCommands p cs).statusOutputs = s.statusOutputs := by cases p <;> rfl

@[simp] theorem State.withCommands_zeroedByCommand (s : State) (p : Port) (cs : List Command) (i : Instr) :
    (s.withCommands p cs).zeroedByCommand i = s.zeroedByCommand i := by
  cases i <;> simp [State.zeroedByCommand]

section
variable {s t : State} {e : Event} (effect : EventEffect s e t)
include effect

theorem EventEffect.cfg : t.cfg = s.cfg := by
  cases effect with
  | command next effect =>
    obtain ⟨-, cfg, -⟩ := effect.surroundings
    simpa using cfg
  | publishWrite => simp
  | publishRead => simp
  | _ => rfl

theorem EventEffect.byteAt (a : Nat) :
    t.byteAt a = s.byteAt a ∨
      ∃ f v, e = .turn .P ∧ s.portP = .copy f ∧ f.src[f.i]? = some v ∧
        t.byteAt a = if a = s.writeAddress f then v else s.byteAt a := by
  cases effect with
  | command next effect =>
    obtain ⟨storage, -⟩ := effect.surroundings
    exact .inl (State.byteAt_congr (by simpa using storage) a)
  | @store f v copying byte =>
    exact .inr ⟨f, v, rfl, copying, byte, Memory.byteAt_write (s.writeAddress f) a v s.storage⟩
  | _ => exact .inl rfl

/-- Port `P`'s sequencer moves only in its own turns, and in a reset. -/
theorem EventEffect.portP (turn : e ≠ .turn .P) (reset : e ≠ .reset) : t.portP = s.portP := by
  cases effect with
  | reset => exact absurd rfl reset
  | @command p i t next effect =>
    have on_C : i.port = .C := by
      rw [State.nextCommand_port next]
      cases p with
      | P => exact absurd rfl turn
      | C => rfl
    simpa using effect.portP (.inl on_C)
  | store => exact absurd rfl turn
  | publishWrite => exact absurd rfl turn
  | publishRead => simp
  | _ => rfl

/-- Port `C`'s sequencer moves only in its own turns, and in a reset. -/
theorem EventEffect.portC (turn : e ≠ .turn .C) (reset : e ≠ .reset) : t.portC = s.portC := by
  cases effect with
  | reset => exact absurd rfl reset
  | @command p i t next effect =>
    have on_P : i.port = .P := by
      rw [State.nextCommand_port next]
      cases p with
      | P => rfl
      | C => exact absurd rfl turn
    simpa using effect.portC (.inl on_P)
  | load => exact absurd rfl turn
  | publishRead => exact absurd rfl turn
  | publishWrite => simp
  | _ => rfl

/-- A port's list of commands changes only when the port takes one up. -/
theorem EventEffect.commands (q : Port) :
    t.commands q = s.commands q ∨
      e = .turn q ∧ s.portIdle q = true ∧ t.commands q = (s.commands q).tail := by
  cases effect with
  | observe => simp
  | reset => simp
  | nothing => exact .inl rfl
  | @command p i t next effect =>
    have commands := effect.commands q
    rw [State.withCommands_commands] at commands
    split at commands
    · next same =>
      subst same
      exact .inr ⟨rfl, State.portIdle_of_nextCommand next, commands⟩
    · exact .inl commands
  | _ => cases q <;> exact .inl rfl

theorem EventEffect.zeros (zeroed : s.zeroedBy e = true) :
    t.writeIndex = 0 ∧ t.readIndex = 0 ∧ t.overflowCount = 0 := by
  cases effect with
  | observe => cases zeroed
  | reset => simp
  | nothing idle none_left => simp [State.zeroedBy, State.nextCommand, none_left] at zeroed
  | command next effect =>
    rw [State.zeroedBy_turn next] at zeroed
    exact effect.zeros (by simpa using zeroed)
  | store copying => simp [State.zeroedBy_turn_of_busy (State.portIdle_of_write_copy copying)] at zeroed
  | publishWrite publishing => simp [State.zeroedBy_turn_of_busy (State.portIdle_of_write_publish publishing)] at zeroed
  | load copying => simp [State.zeroedBy_turn_of_busy (State.portIdle_of_read_copy copying)] at zeroed
  | publishRead publishing => simp [State.zeroedBy_turn_of_busy (State.portIdle_of_read_publish publishing)] at zeroed

/-- An event that does not zero the buffer changes no register but in a publish step (R82, R89): a publish of port `P`
the write index and the counter, one of port `C` the read index. -/
theorem EventEffect.registers (stays : s.zeroedBy e = false) :
    (t.statusOutputs = s.statusOutputs ∧ t.storageBase = s.storageBase) ∨
      (∃ f, e = .turn .P ∧ s.portP = .publish f ∧ t = State.respond { s with
        writeIndex := adv f.wr f.k s.capacitySlots
        overflowCount := satAdd s.cfg.ovfW s.overflowCount f.drop
        portP := .idle } .P .ok f.k []) ∨
      ∃ f, e = .turn .C ∧ s.portC = .publish f ∧ t = State.respond { s with
        readIndex := adv f.rd f.k s.capacitySlots
        portC := .idle } .C .ok f.k f.dst := by
  cases effect with
  | reset => cases stays
  | command next effect =>
    rw [State.zeroedBy_turn next] at stays
    exact .inl (by simpa using effect.registers (by simpa using stays))
  | publishWrite publishing => exact .inr (.inl ⟨_, rfl, publishing, rfl⟩)
  | publishRead publishing => exact .inr (.inr ⟨_, rfl, publishing, rfl⟩)
  | _ => exact .inl ⟨rfl, rfl⟩

/-- Apart from zeroings only step W3 writes the write index and the counter. -/
theorem EventEffect.writeIndex_overflowCount (stays : s.zeroedBy e = false)
    (no_publish : ∀ f, e = .turn .P → s.portP ≠ .publish f) :
    t.writeIndex = s.writeIndex ∧ t.overflowCount = s.overflowCount := by
  obtain ⟨outputs, -⟩ | ⟨f, turn, publishing, -⟩ | ⟨f, -, -, rfl⟩ := effect.registers stays
  · exact ⟨congrArg StatusOutputs.writeIndex outputs, congrArg StatusOutputs.overflowCount outputs⟩
  · exact absurd publishing (no_publish f turn)
  · simp

/-- Apart from zeroings only step R3 writes the read index. -/
theorem EventEffect.readIndex (stays : s.zeroedBy e = false)
    (no_publish : ∀ f, e = .turn .C → s.portC ≠ .publish f) : t.readIndex = s.readIndex := by
  obtain ⟨outputs, -⟩ | ⟨f, -, -, rfl⟩ | ⟨f, turn, publishing, -⟩ := effect.registers stays
  · exact congrArg StatusOutputs.readIndex outputs
  · simp
  · exact absurd publishing (no_publish f turn)

end

/-- Settles O40: a byte that changes is the one that step W2 stores. -/
theorem onlyWriteCopyStores : Obligations.OnlyWriteCopyStores := by
  unfold Obligations.OnlyWriteCopyStores
  intro s t e a h changed
  obtain same | ⟨f, v, turn, copying, byte, stored⟩ := (runEvent_effect h).byteAt a
  · exact absurd same changed
  · have at_address : a = s.writeAddress f := by
      by_contra elsewhere
      exact changed (stored.trans (if_neg elsewhere))
    rw [if_pos at_address] at stored
    exact ⟨f, turn, copying, at_address, stored ▸ byte⟩

/-- Settles O33: a list of commands that changes is the one whose port takes a command up. -/
theorem busyPortHoldsItsCommands : Obligations.BusyPortHoldsItsCommands := by
  unfold Obligations.BusyPortHoldsItsCommands
  intro s t e p h changed
  exact ((runEvent_effect h).commands p).resolve_left changed

/-- Settles O47: only a binding command and a reset write these registers. -/
theorem onlyInitBinds : Obligations.OnlyInitBinds := by
  unfold Obligations.OnlyInitBinds
  intro s t e h changed
  have unchanged : ¬(t.capacitySlots = s.capacitySlots ∧ t.storageBase = s.storageBase ∧ t.active = s.active) := by
    tauto
  cases runEvent_effect h with
  | reset => exact .inl rfl
  | command next effect =>
    obtain rfl := State.nextCommand_port next
    cases effect with
    | @bind p cap base peer_idle valid => exact .inr ⟨p, cap, base, rfl, next, by simpa using valid, by simp⟩
    | answer => simp at unchanged
    | clear => simp at unchanged
    | beginWrite => simp at unchanged
    | beginRead => simp at unchanged
  | publishWrite => simp at unchanged
  | publishRead => simp at unchanged
  | _ => exact absurd ⟨rfl, rfl, rfl⟩ unchanged

/-- Settles O48: with no zeroing, what a port owns changes in its own turns only. -/
theorem eachIndexHasOneWriter : Obligations.EachIndexHasOneWriter := by
  unfold Obligations.EachIndexHasOneWriter
  intro s t e h stays
  have effect := runEvent_effect h
  have no_reset : e ≠ .reset := by
    rintro rfl
    cases stays
  refine ⟨fun turn => ?_, fun turn => ⟨effect.readIndex stays fun _ h => absurd h turn, effect.portC turn no_reset⟩⟩
  obtain ⟨writeIndex, overflowCount⟩ := effect.writeIndex_overflowCount stays fun _ h => absurd h turn
  exact ⟨writeIndex, overflowCount, effect.portP turn no_reset,
    fun a => (effect.byteAt a).resolve_right fun ⟨_, _, h, _⟩ => turn h⟩

/-- Settles O49: without a publish step the registers stay. -/
theorem onlyPublishIsVisible : Obligations.OnlyPublishIsVisible := by
  unfold Obligations.OnlyPublishIsVisible
  intro s t e h stays no_write no_read
  obtain same | ⟨f, turn, publishing, -⟩ | ⟨f, turn, publishing, -⟩ := (runEvent_effect h).registers stays
  · exact same
  · exact absurd publishing (no_write f turn)
  · exact absurd publishing (no_read f turn)

theorem State.droppedBy_of_publish {s : State} {f : WriteFlight} (publishing : s.portP = .publish f) :
    s.droppedBy (.turn .P) = f.drop := by rw [State.droppedBy, publishing]

theorem State.droppedBy_of_no_publish {s : State} {e : Event}
    (no_publish : ∀ f, e = .turn .P → s.portP ≠ .publish f) : s.droppedBy e = 0 := by
  unfold State.droppedBy
  split
  · split
    · next f publishing => exact absurd publishing (no_publish f rfl)
    · rfl
  · rfl

/-- Settles O50: the counter grows in step W3 alone, by the saturating sum of R7. -/
theorem overflowCountsDroppedBytes : Obligations.OverflowCountsDroppedBytes := by
  unfold Obligations.OverflowCountsDroppedBytes
  intro s t e fits h
  have effect := runEvent_effect h
  refine ⟨fun zeroed => (effect.zeros zeroed).2.2, fun stays => ?_⟩
  suffices t.overflowCount = min (s.overflowCount + s.droppedBy e) (2 ^ s.cfg.ovfW - 1) from ⟨this, by omega⟩
  by_cases publishes : ∃ f, e = .turn .P ∧ s.portP = .publish f
  · obtain ⟨f, rfl, publishing⟩ := publishes
    rw [runEvent_turn_of_write_publish publishing] at h
    cases h
    rw [State.droppedBy_of_publish publishing]
    simp [satAdd]
  · have no_publish (f : WriteFlight) (turn : e = .turn .P) : s.portP ≠ .publish f :=
      fun publishing => publishes ⟨f, turn, publishing⟩
    obtain ⟨-, unchanged⟩ := effect.writeIndex_overflowCount stays no_publish
    rw [unchanged, State.droppedBy_of_no_publish no_publish]
    omega

end Sys2Proof.Machine
end

section
/-! Which condition answers a command, and that an error response is precise (60_exceptions.md). -/

namespace Sys2Proof.Machine

/-- Settles O24: every meaning is guarded by the acceptance of R62. -/
theorem busyPortRunsNoCommand : Obligations.BusyPortRunsNoCommand := by
  unfold Obligations.BusyPortRunsNoCommand
  intro s i busy
  cases i <;> exact State.accept_of_busy _ busy

/-- Settles O20: each of the commands tests `active` before it looks at an operand or at the descriptor. -/
theorem notActiveChangesNothing : Obligations.NotActiveChangesNothing := by
  unfold Obligations.NotActiveChangesNothing
  intro s p a b src inactive idle
  refine ⟨fun peer_idle => exec_clear_of_inactive idle peer_idle a b inactive,
    exec_dataCount_of_inactive idle a b inactive, exec_spaceCount_of_inactive idle a b inactive, ?_, ?_⟩
  · rintro rfl
    exact exec_write_of_inactive idle a b src inactive
  · rintro rfl
    exact exec_read_of_inactive idle a b inactive

/-! Commands by their operation code and legality (R54, R58). -/

theorem exists_init_of_opcode {i : Instr} (op : i.opcode = 0) : ∃ p cap base, i = .init p cap base := by
  cases i with
  | init p cap base => exact ⟨p, cap, base, rfl⟩
  | _ => cases op

theorem exists_write_of_opcode {i : Instr} (op : i.opcode = 4) (legal : i.legal = true) :
    ∃ n b src, i = .write .P n b src := by
  cases i with
  | write p n b src =>
    obtain rfl : p = .P := of_decide_eq_true legal
    exact ⟨n, b, src, rfl⟩
  | _ => cases op

theorem exists_read_of_opcode {i : Instr} (op : i.opcode = 5) (legal : i.legal = true) :
    ∃ n b, i = .read .C n b := by
  cases i with
  | read p n b =>
    obtain rfl : p = .C := of_decide_eq_true legal
    exact ⟨n, b, rfl⟩
  | _ => cases op

/-- Every legal command but `INIT` answers `NOT_ACTIVE` on an inactive descriptor (R94). -/
theorem exec_legal_of_inactive {i : Instr} {s t : State} (h : exec i s = .next t) (legal : i.legal = true)
    (op : i.opcode ≠ 0) (inactive : s.active = false) : t = s.respond i.port .notActive 0 [] := by
  have idle := exec_idle h
  suffices exec i s = .next (s.respond i.port .notActive 0 []) by
    rw [this] at h
    cases h
    rfl
  cases i with
  | init p cap base => exact absurd rfl op
  | clear p a b =>
    obtain ⟨-, peer_idle, -⟩ := execClear_next h
    exact exec_clear_of_inactive idle peer_idle a b inactive
  | dataCount p a b => exact exec_dataCount_of_inactive idle a b inactive
  | spaceCount p a b => exact exec_spaceCount_of_inactive idle a b inactive
  | write p n b src =>
    obtain rfl : p = .P := of_decide_eq_true legal
    exact exec_write_of_inactive idle n b src inactive
  | read p n b =>
    obtain rfl : p = .C := of_decide_eq_true legal
    exact exec_read_of_inactive idle n b inactive
  | reserved6 p a b => cases legal
  | reserved7 p a b => cases legal

/-- Settles O23: each condition fixes the whole answer of the commands to which it applies, given that those before it
in the order of R99 do not. -/
theorem conditionsInPriorityOrder : Obligations.ConditionsInPriorityOrder := by
  unfold Obligations.ConditionsInPriorityOrder
  intro s t i h answers answers_iff
  have idle := exec_idle h
  have answered : ∀ {st v}, t = s.respond i.port st v [] → answers st v := by
    rintro st v rfl
    simp [answers_iff]
  have executed : ∀ {u}, exec i s = .next u → t = u := by
    intro u h'
    rw [h] at h'
    cases h'
    rfl
  refine ⟨fun illegal => answered (executed (exec_illegal_of_idle illegal idle)), fun op invalid => ?_,
    fun legal op inactive => answered (exec_legal_of_inactive h legal op inactive), fun legal op active zero => ?_,
    fun legal op active no_data => ?_, fun legal op active n_ne => ?_⟩
  · obtain ⟨p, cap, base, rfl⟩ := exists_init_of_opcode op
    obtain ⟨-, peer_idle, -⟩ := execInit_next h
    exact answered (executed (exec_init_of_invalid idle peer_idle (ne_true_of_eq_false invalid)))
  · obtain op | op := op
    · obtain ⟨n, b, src, rfl⟩ := exists_write_of_opcode op legal
      obtain rfl : n = 0 := zero
      exact answered (executed (exec_write_zero idle active b src))
    · obtain ⟨n, b, rfl⟩ := exists_read_of_opcode op legal
      exact answered (executed (exec_read_of_nothing idle active b (.inl zero)))
  · obtain ⟨n, b, rfl⟩ := exists_read_of_opcode op legal
    exact answered (executed (exec_read_of_nothing idle active b (.inr no_data)))
  · obtain ⟨n, b, src, rfl⟩ := exists_write_of_opcode op legal
    rw [executed (exec_write_of_ne_zero idle active b src n_ne)]
    rfl

/-! The responses that an event issues. -/

/-- Why an event issues the response `r` on port `p`: it is the whole effect of the command that the port takes up, or
that of a command which is answered with `OK 0`, or the response of a publish step. -/
inductive ResponseCause (s t : State) : Port → Response → Prop
  | answer {p : Port} {st : Status} {v : Nat}
      (value : v = 0 ∨ st = .ok ∧ s.active = true ∧ (v = s.dataCount ∨ v = s.spaceCount))
      (whole : t = (s.takeCommand p).respond p st v []) : ResponseCause s t p ⟨st, v, []⟩
  | config {p : Port} : ResponseCause s t p ⟨.ok, 0, []⟩
  | publishWrite {f : WriteFlight} (publishing : s.portP = .publish f) : ResponseCause s t .P ⟨.ok, f.k, []⟩
  | publishRead {f : ReadFlight} (publishing : s.portC = .publish f) : ResponseCause s t .C ⟨.ok, f.k, f.dst⟩

/-- An event issues at most one response, and that on the port whose turn it is. -/
theorem EventEffect.responses {s t : State} {e : Event} (effect : EventEffect s e t) (q : Port) :
    t.responses q = s.responses q ∨
      ∃ r, t.responses q = s.responses q ++ [r] ∧ e = .turn q ∧ ResponseCause s t q r := by
  cases effect with
  | observe => simp
  | reset => simp
  | nothing => exact .inl rfl
  | @command p i t next effect =>
    obtain rfl := State.nextCommand_port next
    by_cases own : q = i.port
    · subst own
      cases effect with
      | answer st v _ value => exact .inr ⟨_, by simp, rfl, .answer (by simpa using value) rfl⟩
      | bind => exact .inr ⟨_, by simp [Instr.port], rfl, .config⟩
      | clear => exact .inr ⟨_, by simp [Instr.port], rfl, .config⟩
      | beginWrite => simp
      | beginRead => simp
    · exact .inl (by simpa using effect.responses_of_ne own)
  | store => cases q <;> exact .inl rfl
  | load => cases q <;> exact .inl rfl
  | publishWrite publishing =>
    cases q with
    | P => exact .inr ⟨_, rfl, rfl, .publishWrite publishing⟩
    | C => exact .inl rfl
  | publishRead publishing =>
    cases q with
    | P => exact .inl rfl
    | C => exact .inr ⟨_, rfl, rfl, .publishRead publishing⟩

/-- Settles O22: of all the responses that an event issues only a command's immediate answer carries an error, and it is
the whole of the change. -/
theorem errorsArePrecise : Obligations.ErrorsArePrecise := by
  unfold Obligations.ErrorsArePrecise
  intro s t p r h responses error
  obtain none_issued | ⟨r', issued, -, cause⟩ := (runEvent_effect h).responses p
  · simp [none_issued] at responses
  · obtain rfl : r' = r := by simpa [issued] using responses
    cases cause with
    | answer value whole =>
      obtain rfl := value.resolve_right fun ⟨ok, _⟩ => error ok
      exact ⟨rfl, rfl, whole⟩
    | _ => exact absurd rfl error

end Sys2Proof.Machine
end

section
/-! What one step runs, reset, and responding (20_memory.md R42 to R44, 70_reset_and_hazards.md R107 to R109). -/

namespace Sys2Proof.Machine

/-! Which event a step runs. -/

theorem step_of_schedule {s : State} {e : Event} {es : List Event} (h : s.schedule = e :: es) :
    step s = runEvent e { s with schedule := es } := by
  simp only [step, runStep, State.nextEvent, h]

section
variable {s : State} (unscheduled : s.schedule = [])
include unscheduled

theorem step_of_none_enabled (idle_P : s.enabled .P = false) (idle_C : s.enabled .C = false) : step s = .next s := by
  simp only [step, runStep, State.nextEvent, unscheduled, idle_P, idle_C]

theorem step_of_only_P_enabled (can_P : s.enabled .P = true) (idle_C : s.enabled .C = false) :
    step s = runEvent (.turn .P) s := by
  simp only [step, runStep, State.nextEvent, unscheduled, can_P, idle_C]

theorem step_of_only_C_enabled (idle_P : s.enabled .P = false) (can_C : s.enabled .C = true) :
    step s = runEvent (.turn .C) s := by
  simp only [step, runStep, State.nextEvent, unscheduled, idle_P, can_C]

theorem step_of_both_enabled (can_P : s.enabled .P = true) (can_C : s.enabled .C = true) :
    step s = runEvent (.turn (Config.freeTurn s.choices)) { s with choices := s.choices + 1 } := by
  simp only [step, runStep, State.nextEvent, unscheduled, can_P, can_C]

end

/-- Settles O32: the four cases in which no event is scheduled differ by which ports have a step. -/
theorem stepFollowsTheSchedule : Obligations.StepFollowsTheSchedule := by
  unfold Obligations.StepFollowsTheSchedule
  intro s
  exact ⟨fun e es h => step_of_schedule h, fun unscheduled => ⟨step_of_none_enabled unscheduled,
    step_of_only_P_enabled unscheduled, step_of_only_C_enabled unscheduled,
    fun can_P can_C => ⟨_, step_of_both_enabled unscheduled can_P can_C⟩⟩⟩

/-- What choosing the event leaves: everything but the schedule and the count of free choices. -/
theorem step_next {s t : State} (h : step s = .next t) :
    t = s ∨ ∃ e es n, runEvent e { s with schedule := es, choices := n } = .next t := by
  cases chosen : s.nextEvent with
  | none =>
    simp only [step, runStep, chosen] at h
    cases h
    exact .inl rfl
  | some eu =>
    obtain ⟨e, u⟩ := eu
    simp only [step, runStep, chosen] at h
    obtain ⟨rest, -, rfl⟩ | ⟨unscheduled, p, -, -, rfl | rfl⟩ := State.nextEvent_some chosen
    · exact .inr ⟨e, rest, s.choices, h⟩
    · exact .inr ⟨e, u.schedule, u.choices, h⟩
    · exact .inr ⟨e, s.schedule, s.choices + 1, h⟩

/-- Settles O31: the scheduled turn is the first step of the decoded command. -/
theorem stepRunsTheDecodedCommand : Obligations.StepRunsTheDecodedCommand := by
  unfold Obligations.StepRunsTheDecodedCommand
  intro s p es cmd rest i scheduled idle cmds ok
  refine ⟨?_, decode_wellFormed ok⟩
  have idle' : ({ s with schedule := es } : State).portIdle p = true := by cases p <;> exact idle
  have cmds' : ({ s with schedule := es } : State).commands p = cmd :: rest := by cases p <;> exact cmds
  rw [step_of_schedule scheduled, runEvent_turn_of_idle idle', issueNext_of_decodes cmds' ok]

/-- Settles O8: the reset state is inactive, which both flags show, and the rest of it is as it was. -/
theorem hostResetStep : Obligations.HostResetStep := by
  unfold Obligations.HostResetStep
  intro s
  exact ⟨rfl, State.empty_of_inactive rfl, State.full_of_inactive rfl, State.hostReset_byteAt s,
    State.hostReset_responses s⟩

/-- Settles O10: the two cases of the definition. -/
theorem respondIssuesOneResponse : Obligations.RespondIssuesOneResponse := by
  unfold Obligations.RespondIssuesOneResponse
  intro s st v bs
  exact ⟨rfl, rfl⟩

/-- Settles O9: the reset state is inactive, with nothing in flight and nothing stored. -/
theorem invAtReset : Obligations.InvAtReset where
  cfg := by decide
  active := nofun
  inactive _ := ⟨rfl, rfl, rfl, rfl, rfl, rfl⟩
  overflow := by decide
  storage_wf := State.reset_storage_wf
  storage_in_space := nofun
  write_seq := trivial
  read_seq := trivial

end Sys2Proof.Machine
end

section
/-! The bytes of the buffer, and what the steps of a transfer make of them (20_memory.md R38, 42_transfer_ops.md R80,
R81, R87, R88). -/

namespace Sys2Proof.Machine

/-- The bytes in the `len` slots that a copy visits from slot `off` on. -/
def State.bytesFrom (s : State) (off len : Nat) : List Byte :=
  (slotsFrom off len s.capacitySlots).map fun i => s.byteAt (s.slot i)

theorem State.contents_of_active {s : State} (active : s.active = true) :
    s.contents = s.bytesFrom s.readIndex s.dataCount := if_pos active

theorem State.contents_of_inactive {s : State} (inactive : s.active = false) : s.contents = [] :=
  if_neg (by simp [inactive])

theorem State.contents_of_indices_eq {s : State} (h : s.writeIndex = s.readIndex) : s.contents = [] := by
  cases active : s.active with
  | false => exact State.contents_of_inactive active
  | true => rw [State.contents_of_active active, State.dataCount_of_indices_eq h]; rfl

@[simp] theorem State.length_bytesFrom (s : State) (off len : Nat) : (s.bytesFrom off len).length = len := by
  rw [State.bytesFrom, List.length_map, length_slotsFrom]

theorem State.bytesFrom_succ (s : State) (off len : Nat) :
    s.bytesFrom off (len + 1) = s.bytesFrom off len ++ [s.byteAt (s.slot (adv off len s.capacitySlots))] := by
  rw [State.bytesFrom, slotsFrom_succ, List.map_append, List.map_singleton, State.bytesFrom]

theorem State.bytesFrom_add {s : State} {off a b : Nat} (hoff : off < s.capacitySlots) (h : a + b ≤ s.capacitySlots) :
    s.bytesFrom off (a + b) = s.bytesFrom off a ++ s.bytesFrom (adv off a s.capacitySlots) b := by
  rw [State.bytesFrom, slotsFrom_add hoff h, List.map_append, State.bytesFrom, State.bytesFrom]

theorem State.bytesFrom_take {s : State} {off a len : Nat} (hoff : off < s.capacitySlots) (h : a ≤ len)
    (len_le : len ≤ s.capacitySlots) : (s.bytesFrom off len).take a = s.bytesFrom off a := by
  obtain ⟨b, rfl⟩ := Nat.exists_eq_add_of_le h
  rw [State.bytesFrom_add hoff len_le, List.take_left' (s.length_bytesFrom off a)]

theorem State.length_contents {s : State} (active : s.active = true) : s.contents.length = s.dataCount := by
  rw [State.contents_of_active active, State.length_bytesFrom]

/-! Addresses. -/

theorem State.slot_inj {s : State} {i j : Nat} : s.slot i = s.slot j ↔ i = j := Nat.add_left_cancel_iff

theorem ActiveOk.slot_lt {s : State} (ok : ActiveOk s) {i : Nat} (h : i < s.capacitySlots) :
    s.slot i < s.cfg.storageBytes := by
  have region_fits := ok.region_fits
  rw [State.slot]
  omega

/-- Step W2 stores to one of the producer's slots (R38). -/
theorem WriteOk.slot_mem {s : State} {f : WriteFlight} (h : WriteOk s f) (more : f.i < f.k) :
    adv f.wr f.i s.capacitySlots ∈ s.producerSlots := by
  rw [h.sampled]
  exact mem_slotsFrom.2 ⟨f.i, more.trans_le h.fits, rfl⟩

/-- Step R2 reads one of the published slots (R38). -/
theorem ReadOk.slot_mem {s : State} {f : ReadFlight} (h : ReadOk s f) (more : f.i < f.k) :
    adv f.rd f.i s.capacitySlots ∈ s.publishedSlots := by
  rw [h.sampled]
  exact mem_slotsFrom.2 ⟨f.i, more.trans_le h.available, rfl⟩

/-- A byte stored in one slot is read there, and every other slot keeps its byte. -/
theorem State.byteAt_store (s : State) (x j : Nat) (v : Byte) (seq : WriteSeq) :
    { s with storage := s.storage.write (s.slot x) v, portP := seq }.byteAt (s.slot j) =
      if j = x then v else s.byteAt (s.slot j) := by
  rw [State.byteAt, Memory.byteAt_write, ite_congr (propext State.slot_inj) (fun _ => rfl) (fun _ => rfl), State.byteAt]

/-- A byte stored in a slot that is not published leaves the contents. -/
theorem State.contents_store {s : State} {x : Nat} (h : x ∉ s.publishedSlots) (v : Byte) (seq : WriteSeq) :
    { s with storage := s.storage.write (s.slot x) v, portP := seq }.contents = s.contents := by
  refine ite_congr rfl (fun _ => List.map_congr_left fun j hj => ?_) (fun _ => rfl)
  exact (s.byteAt_store x j v seq).trans (if_neg fun same : j = x => h (same ▸ hj))

/-- The bytes a `WRITE` has stored are the first of its payload, in order. -/
theorem WriteOk.bytesFrom_eq {s : State} {f : WriteFlight} (h : WriteOk s f) :
    s.bytesFrom f.wr f.i = f.src.take f.i := by
  have length := h.length
  have progress := h.progress
  refine List.ext_getElem? fun j => ?_
  obtain before | after := Nat.lt_or_ge j f.i
  · rw [List.getElem?_take_of_lt before, h.stored j before, State.bytesFrom, slotsFrom, List.map_map,
      List.getElem?_map, List.getElem?_range before]
    rfl
  · rw [List.getElem?_eq_none (by simpa using after), List.getElem?_eq_none (by simp; omega)]

section
variable {s : State} (ok : ActiveOk s)
include ok

theorem ActiveOk.lt_of_mem_producerSlots {x : Nat} (h : x ∈ s.producerSlots) : x < s.capacitySlots := by
  obtain ⟨j, hj, rfl⟩ := mem_slotsFrom.1 h
  have sum := ok.dataCount_add_spaceCount
  exact adv_lt ok.write_lt (by omega)

theorem ActiveOk.lt_of_mem_publishedSlots {x : Nat} (h : x ∈ s.publishedSlots) : x < s.capacitySlots := by
  obtain ⟨j, hj, rfl⟩ := mem_slotsFrom.1 h
  have lt := ok.dataCount_lt
  exact adv_lt ok.read_lt (by omega)

/-! Step W2. -/

/-- A `WRITE` that has stored its next byte is one byte on. -/
theorem WriteOk.store {f : WriteFlight} {v : Byte} (h : WriteOk s f) (more : f.i < f.k) (byte : f.src[f.i]? = some v)
    (seq : WriteSeq) :
    WriteOk { s with storage := s.storage.write (s.writeAddress f) v, portP := seq } { f with i := f.i + 1 } where
  active := h.active
  sampled := h.sampled
  fits := h.fits
  progress := more
  length := h.length
  some_bytes := h.some_bytes
  operand := h.operand
  stored j hj := by
    have sum := ok.dataCount_add_spaceCount
    have fits := h.fits
    have wr_lt : f.wr < s.capacitySlots := h.sampled ▸ ok.write_lt
    have stored := s.byteAt_store (adv f.wr f.i s.capacitySlots) (adv f.wr j s.capacitySlots) v seq
    refine Eq.trans ?_ (congrArg some stored.symm)
    obtain before | rfl := Nat.lt_succ_iff_lt_or_eq.1 hj
    · rw [if_neg fun same => before.ne (adv_inj wr_lt (by omega) (by omega) same)]
      exact h.stored j before
    · rw [if_pos rfl, byte]

/-! Step W3. -/

/-- Publishing `k` more bytes raises the data count by `k`, if there is space for them. -/
theorem ActiveOk.dataCount_publishWrite {k : Nat} (fits : k ≤ s.spaceCount) (o : Nat) (seq : WriteSeq) :
    { s with writeIndex := adv s.writeIndex k s.capacitySlots, overflowCount := o, portP := seq }.dataCount =
      s.dataCount + k := by
  have two_le := ok.two_le_cap
  have sum := ok.dataCount_add_spaceCount
  refine diff_adv_left ok.write_lt ok.read_lt ?_
  show s.dataCount + k < s.capacitySlots
  omega

/-- Publishing `k` more bytes puts them at the end of the contents. -/
theorem ActiveOk.contents_publishWrite (active : s.active = true) {k : Nat} (fits : k ≤ s.spaceCount) (o : Nat)
    (seq : WriteSeq) :
    { s with writeIndex := adv s.writeIndex k s.capacitySlots, overflowCount := o, portP := seq }.contents =
      s.contents ++ s.bytesFrom s.writeIndex k := by
  have two_le := ok.two_le_cap
  have sum := ok.dataCount_add_spaceCount
  have all : { s with writeIndex := adv s.writeIndex k s.capacitySlots, overflowCount := o, portP := seq }.contents =
      s.bytesFrom s.readIndex (s.dataCount + k) := by
    rw [← ok.dataCount_publishWrite fits o seq]
    exact State.contents_of_active active
  rw [all, State.bytesFrom_add ok.read_lt (by omega), ok.adv_dataCount, State.contents_of_active active]

/-- A finished `WRITE` publishes its bytes. -/
theorem WriteOk.contents_publish {f : WriteFlight} (h : WriteOk s f) (finished : f.i = f.k) (o : Nat)
    (seq : WriteSeq) :
    { s with writeIndex := adv f.wr f.k s.capacitySlots, overflowCount := o, portP := seq }.contents =
      s.contents ++ f.src.take f.k := by
  rw [← finished, ← h.bytesFrom_eq, finished, h.sampled]
  exact ok.contents_publishWrite h.active h.fits o seq

/-! Step R2. -/

/-- The bytes a `READ` has copied are those of the slots from its sample on. -/
theorem ReadOk.dst_eq {f : ReadFlight} (h : ReadOk s f) : f.dst = s.bytesFrom s.readIndex f.i := by
  have := h.progress.trans h.available
  rw [h.copied, State.contents_of_active h.active, State.bytesFrom_take ok.read_lt this ok.dataCount_lt.le]

/-- A `READ` that has copied its next byte is one byte on. -/
theorem ReadOk.load {f : ReadFlight} (h : ReadOk s f) (more : f.i < f.k) (seq : ReadSeq) :
    ReadOk { s with portC := seq } { f with i := f.i + 1, dst := f.dst ++ [s.byteAt (s.readAddress f)] } where
  active := h.active
  sampled := h.sampled
  some_bytes := h.some_bytes
  available := h.available
  progress := more
  copied := by
    have : f.i + 1 ≤ s.dataCount := more.trans_le h.available
    have next : s.contents.take (f.i + 1) = s.bytesFrom s.readIndex (f.i + 1) := by
      rw [State.contents_of_active h.active, State.bytesFrom_take ok.read_lt this ok.dataCount_lt.le]
    refine Eq.trans ?_ next.symm
    rw [State.bytesFrom_succ, ← h.dst_eq ok, State.readAddress, h.sampled]

/-! Step R3. -/

/-- Taking `k` bytes lowers the data count by `k`, if there are as many. -/
theorem ActiveOk.dataCount_publishRead {k : Nat} (available : k ≤ s.dataCount) (seq : ReadSeq) :
    { s with readIndex := adv s.readIndex k s.capacitySlots, portC := seq }.dataCount = s.dataCount - k :=
  diff_adv_right ok.write_lt ok.read_lt available

theorem ReadOk.spaceCount_le_publish {f : ReadFlight} (h : ReadOk s f) (seq : ReadSeq) :
    s.spaceCount ≤ { s with readIndex := adv f.rd f.k s.capacitySlots, portC := seq }.spaceCount := by
  rw [h.sampled, State.spaceCount, State.spaceCount, ok.dataCount_publishRead h.available]
  exact Nat.sub_le_sub_left (Nat.sub_le _ _) _

/-- The contents that taking `k` bytes leaves are those after the first `k`. -/
theorem ActiveOk.contents_publishRead (active : s.active = true) {k : Nat} (available : k ≤ s.dataCount)
    (seq : ReadSeq) :
    s.bytesFrom s.readIndex k ++
      { s with readIndex := adv s.readIndex k s.capacitySlots, portC := seq }.contents = s.contents := by
  have lt := ok.dataCount_lt
  have rest : { s with readIndex := adv s.readIndex k s.capacitySlots, portC := seq }.contents =
      s.bytesFrom (adv s.readIndex k s.capacitySlots) (s.dataCount - k) := by
    rw [← ok.dataCount_publishRead available seq]
    exact State.contents_of_active active
  rw [rest, ← State.bytesFrom_add ok.read_lt (by omega), Nat.add_sub_cancel' available, State.contents_of_active active]

/-- A finished `READ` takes its bytes from the front of the contents. -/
theorem ReadOk.contents_publish {f : ReadFlight} (h : ReadOk s f) (finished : f.i = f.k) (seq : ReadSeq) :
    f.dst ++ { s with readIndex := adv f.rd f.k s.capacitySlots, portC := seq }.contents = s.contents := by
  rw [h.dst_eq ok, finished, h.sampled]
  exact ok.contents_publishRead h.active h.available seq

end

end Sys2Proof.Machine
end

section
/-! The invariant of every state a run reaches is kept by every step (10_state.md, 20_memory.md R31, R38,
42_transfer_ops.md). -/

namespace Sys2Proof.Machine

/-! The invariant speaks of the controller alone. -/

/-- The controller without the run around it: no commands, schedule, responses or observations (log 13). -/
def State.controller (s : State) : State :=
  { s with
    pCommands := [], cCommands := [], schedule := [], choices := 0, pResponses := [], cResponses := []
    observations := [] }

@[simp] theorem State.respond_controller (s : State) (p : Port) (st : Status) (v : Nat) (bs : List Byte) :
    (s.respond p st v bs).controller = s.controller := by cases p <;> rfl
@[simp] theorem State.withCommands_controller (s : State) (p : Port) (cs : List Command) :
    (s.withCommands p cs).controller = s.controller := by cases p <;> rfl
@[simp] theorem State.observe_controller (s : State) (g : Port) : (s.observe g).controller = s.controller := rfl

theorem WriteSeqOk.of_port {s t : State} (h : WriteSeqOk s) (port : t.portP = s.portP)
    (flight : ∀ f, WriteOk s f → WriteOk t f) : WriteSeqOk t := by
  unfold WriteSeqOk at h ⊢
  rw [port]
  cases phase : s.portP with
  | idle => trivial
  | copy f => rw [phase] at h; exact h.imp_left (flight f)
  | publish f => rw [phase] at h; exact h.imp_left (flight f)

theorem ReadSeqOk.of_port {s t : State} (h : ReadSeqOk s) (port : t.portC = s.portC)
    (flight : ∀ f, ReadOk s f → ReadOk t f) : ReadSeqOk t := by
  unfold ReadSeqOk at h ⊢
  rw [port]
  cases phase : s.portC with
  | idle => trivial
  | copy f => rw [phase] at h; exact h.imp_left (flight f)
  | publish f => rw [phase] at h; exact h.imp_left (flight f)

/-- A `WRITE` in flight is not disturbed while the registers and bytes that it rests on stay and the space does not
shrink. -/
theorem WriteOk.of_registers {s t : State} {f : WriteFlight} (h : WriteOk s f) (cfg : t.cfg = s.cfg)
    (active : t.active = s.active) (writeIndex : t.writeIndex = s.writeIndex)
    (cap : t.capacitySlots = s.capacitySlots) (base : t.storageBase = s.storageBase)
    (space : s.spaceCount ≤ t.spaceCount) (bytes : ∀ a, t.byteAt a = s.byteAt a) : WriteOk t f where
  active := active.trans h.active
  sampled := h.sampled.trans writeIndex.symm
  fits := h.fits.trans space
  progress := h.progress
  length := h.length
  some_bytes := h.some_bytes
  operand := cfg ▸ h.operand
  stored j hj := by rw [bytes, State.slot, base, cap]; exact h.stored j hj

/-- A `READ` in flight is not disturbed while its sample stays current and the contents are only added to. -/
theorem ReadOk.of_contents {s t : State} {f : ReadFlight} (h : ReadOk s f) (active : t.active = s.active)
    (readIndex : t.readIndex = s.readIndex) (contents : s.contents <+: t.contents) : ReadOk t f := by
  have active_t : t.active = true := active.trans h.active
  have data : s.dataCount ≤ t.dataCount := by
    rw [← State.length_contents h.active, ← State.length_contents active_t]
    exact contents.length_le
  refine ⟨active_t, h.sampled.trans readIndex.symm, h.some_bytes, h.available.trans data, h.progress, ?_⟩
  obtain ⟨added, eq⟩ := contents
  have copied_le : f.i ≤ s.contents.length := by
    rw [State.length_contents h.active]
    exact h.progress.trans h.available
  rw [← eq, List.take_append_of_le_length copied_le, h.copied]

/-- States with the same controller differ in fields that the invariant does not mention. -/
theorem Inv.of_controller {s t : State} (h : Inv s) (same : t.controller = s.controller) : Inv t := by
  cases s
  cases t
  cases same
  exact ⟨h.cfg, fun a => have ok := h.active a; ⟨ok.1, ok.2, ok.3, ok.4, ok.5⟩,
    fun a => have ok := h.inactive a; ⟨ok.1, ok.2, ok.3, ok.4, ok.5, ok.6⟩, h.overflow, h.storage_wf,
    h.storage_in_space, h.write_seq.of_port rfl fun f w => w.of_registers rfl rfl rfl rfl rfl le_rfl fun _ => rfl,
    h.read_seq.of_port rfl fun f r => r.of_contents rfl rfl (List.prefix_refl _)⟩

/-! What the invariant says of a port in each phase. -/

section
variable {s : State} (inv : Inv s)
include inv

theorem Inv.write_copy {f : WriteFlight} (h : s.portP = .copy f) : WriteOk s f ∧ f.i < f.k := by
  have seq := inv.write_seq
  rwa [WriteSeqOk, h] at seq

theorem Inv.write_publish {f : WriteFlight} (h : s.portP = .publish f) : WriteOk s f ∧ f.i = f.k := by
  have seq := inv.write_seq
  rwa [WriteSeqOk, h] at seq

theorem Inv.read_copy {f : ReadFlight} (h : s.portC = .copy f) : ReadOk s f ∧ f.i < f.k := by
  have seq := inv.read_seq
  rwa [ReadSeqOk, h] at seq

theorem Inv.read_publish {f : ReadFlight} (h : s.portC = .publish f) : ReadOk s f ∧ f.i = f.k := by
  have seq := inv.read_seq
  rwa [ReadSeqOk, h] at seq

end

/-! The configuration commands and the reset, which leave nothing in flight. -/

theorem State.quiescent_iff {s : State} : s.quiescent = true ↔ s.portP = .idle ∧ s.portC = .idle := by
  rw [State.quiescent, Bool.and_eq_true, State.portIdle_P, State.portIdle_C]

/-- A port and its peer are both ports. -/
theorem State.quiescent_of_portIdle {s : State} {p : Port} (own : s.portIdle p = true)
    (peer : s.portIdle p.peer = true) : s.quiescent = true := by
  cases p with
  | P => exact Bool.and_eq_true_iff.2 ⟨own, peer⟩
  | C => exact Bool.and_eq_true_iff.2 ⟨peer, own⟩

theorem WriteSeqOk.of_idle {s : State} (h : s.portP = .idle) : WriteSeqOk s := by
  rw [WriteSeqOk, h]
  trivial

theorem ReadSeqOk.of_idle {s : State} (h : s.portC = .idle) : ReadSeqOk s := by
  rw [ReadSeqOk, h]
  trivial

section
variable {s : State} (inv : Inv s)
include inv

theorem Inv.hostReset : Inv s.hostReset where
  cfg := inv.cfg
  active := nofun
  inactive _ := ⟨rfl, rfl, rfl, rfl, rfl, rfl⟩
  overflow := Nat.two_pow_pos _
  storage_wf := inv.storage_wf
  storage_in_space := inv.storage_in_space
  write_seq := .of_idle rfl
  read_seq := .of_idle rfl

theorem Inv.bindRegion (quiescent : s.quiescent = true) {base cap : Nat} (valid : validConfig s.cfg base cap = true) :
    Inv (s.bindRegion base cap) := by
  obtain ⟨two_le, le_max, fits⟩ := (validConfig_iff s.cfg base cap).1 valid
  obtain ⟨idle_P, idle_C⟩ := State.quiescent_iff.1 quiescent
  have cap_pos : 0 < cap := by omega
  exact ⟨inv.cfg, fun _ => ⟨two_le, le_max, fits, cap_pos, cap_pos⟩, nofun, Nat.two_pow_pos _, inv.storage_wf,
    inv.storage_in_space, .of_idle idle_P, .of_idle idle_C⟩

theorem Inv.zeroIndices (quiescent : s.quiescent = true) (active : s.active = true) : Inv s.zeroIndices := by
  obtain ⟨two_le, le_max, fits, -, -⟩ := inv.active active
  obtain ⟨idle_P, idle_C⟩ := State.quiescent_iff.1 quiescent
  have cap_pos : 0 < s.capacitySlots := by omega
  exact ⟨inv.cfg, fun _ => ⟨two_le, le_max, fits, cap_pos, cap_pos⟩, fun a => absurd (active.symm.trans a) nofun,
    Nat.two_pow_pos _, inv.storage_wf, inv.storage_in_space, .of_idle idle_P, .of_idle idle_C⟩

/-! The transfers. Each changes the sequencer of its own port; port `P`'s steps may also store, and a publish moves one
index. -/

/-- A step that changes only port `P`'s sequencer, of an active buffer. -/
theorem Inv.setPortP (active : s.active = true) {seq : WriteSeq} (seq_ok : WriteSeqOk { s with portP := seq }) :
    Inv { s with portP := seq } := by
  obtain ⟨a, b, c, d, e⟩ := inv.active active
  exact ⟨inv.cfg, fun _ => ⟨a, b, c, d, e⟩, fun h => absurd (active.symm.trans h) nofun, inv.overflow, inv.storage_wf,
    inv.storage_in_space, seq_ok, inv.read_seq.of_port rfl fun f r => r.of_contents rfl rfl (List.prefix_refl _)⟩

/-- A step that changes only port `C`'s sequencer, of an active buffer. -/
theorem Inv.setPortC (active : s.active = true) {seq : ReadSeq} (seq_ok : ReadSeqOk { s with portC := seq }) :
    Inv { s with portC := seq } := by
  obtain ⟨a, b, c, d, e⟩ := inv.active active
  exact ⟨inv.cfg, fun _ => ⟨a, b, c, d, e⟩, fun h => absurd (active.symm.trans h) nofun, inv.overflow, inv.storage_wf,
    inv.storage_in_space, inv.write_seq.of_port rfl fun f w => w.of_registers rfl rfl rfl rfl rfl le_rfl fun _ => rfl,
    seq_ok⟩

end

/-- The phase that a `WRITE` is in by its progress: `COPY` while there is a byte left to store. -/
def WriteFlight.seq (f : WriteFlight) : WriteSeq := if f.i = f.k then .publish f else .copy f

/-- The phase that a `READ` is in by its progress. -/
def ReadFlight.seq (f : ReadFlight) : ReadSeq := if f.i = f.k then .publish f else .copy f

theorem WriteFlight.seq_of_eq {f : WriteFlight} (finished : f.i = f.k) : f.seq = .publish f := if_pos finished

theorem WriteFlight.seq_of_ne {f : WriteFlight} (more : f.i ≠ f.k) : f.seq = .copy f := if_neg more

theorem ReadFlight.seq_of_eq {f : ReadFlight} (finished : f.i = f.k) : f.seq = .publish f := if_pos finished

theorem ReadFlight.seq_of_ne {f : ReadFlight} (more : f.i ≠ f.k) : f.seq = .copy f := if_neg more

theorem State.beginWrite_eq (s : State) (n : Nat) (src : List Byte) :
    s.beginWrite n src = { s with portP := (s.sampleWrite n src).seq } := by
  rw [State.beginWrite]
  obtain none | some := Nat.eq_zero_or_pos (s.sampleWrite n src).k
  · rw [WriteFlight.seq_of_eq none.symm]
    exact congrArg (fun seq => { s with portP := seq }) (if_neg none.not_gt)
  · rw [WriteFlight.seq_of_ne some.ne]
    exact congrArg (fun seq => { s with portP := seq }) (if_pos some)

theorem State.beginRead_eq {s : State} {n : Nat} (n_ne : n ≠ 0) (data_ne : s.dataCount ≠ 0) :
    s.beginRead n = { s with portC := (s.sampleRead n).seq } := by
  have some : 0 ≠ min n s.dataCount := by omega
  rw [ReadFlight.seq_of_ne some, State.beginRead]

theorem WriteSeqOk.of_seq {s : State} {f : WriteFlight} (port : s.portP = f.seq) (h : WriteOk s f) : WriteSeqOk s := by
  unfold WriteSeqOk
  by_cases finished : f.i = f.k
  · rw [port, WriteFlight.seq_of_eq finished]
    exact ⟨h, finished⟩
  · rw [port, WriteFlight.seq_of_ne finished]
    exact ⟨h, lt_of_le_of_ne h.progress finished⟩

theorem ReadSeqOk.of_seq {s : State} {f : ReadFlight} (port : s.portC = f.seq) (h : ReadOk s f) : ReadSeqOk s := by
  unfold ReadSeqOk
  by_cases finished : f.i = f.k
  · rw [port, ReadFlight.seq_of_eq finished]
    exact ⟨h, finished⟩
  · rw [port, ReadFlight.seq_of_ne finished]
    exact ⟨h, lt_of_le_of_ne h.progress finished⟩

/-- Step W1 samples at most the space there is, and no byte is stored yet. -/
theorem WriteOk.sample {s : State} (active : s.active = true) {n : Nat} (n_ne : n ≠ 0) (operand : n < 2 ^ s.cfg.W)
    {src : List Byte} (length : src.length = n) (seq : WriteSeq) :
    WriteOk { s with portP := seq } (s.sampleWrite n src) := by
  have sum : (s.sampleWrite n src).k + (s.sampleWrite n src).drop = n := Nat.add_sub_cancel' (Nat.min_le_left _ _)
  exact ⟨active, rfl, Nat.min_le_right _ _, Nat.zero_le _, length.trans sum.symm,
    lt_of_lt_of_eq (Nat.pos_of_ne_zero n_ne) sum.symm, lt_of_eq_of_lt sum operand, nofun⟩

/-- Step R1 samples at least one of the bytes there are, and none is copied yet. -/
theorem ReadOk.sample {s : State} (active : s.active = true) {n : Nat} (n_ne : n ≠ 0) (data_ne : s.dataCount ≠ 0)
    (seq : ReadSeq) : ReadOk { s with portC := seq } (s.sampleRead n) :=
  ⟨active, rfl, show 1 ≤ min n s.dataCount by omega, Nat.min_le_right _ _, Nat.zero_le _, rfl⟩

section
variable {s : State} (inv : Inv s)
include inv

theorem Inv.beginWrite (active : s.active = true) {n : Nat} {src : List Byte} (n_ne : n ≠ 0) (operand : n < 2 ^ s.cfg.W)
    (length : src.length = n) : Inv (s.beginWrite n src) := by
  rw [State.beginWrite_eq]
  exact inv.setPortP active (.of_seq rfl (.sample active n_ne operand length _))

theorem Inv.beginRead (active : s.active = true) {n : Nat} (n_ne : n ≠ 0) (data_ne : s.dataCount ≠ 0) :
    Inv (s.beginRead n) := by
  rw [State.beginRead_eq n_ne data_ne]
  exact inv.setPortC active (.of_seq rfl (.sample active n_ne data_ne _))

/-- Step W2 stores to a slot of the producer's, where no `READ` in flight looks. -/
theorem Inv.store {f : WriteFlight} {v : Byte} (copying : s.portP = .copy f) (byte : f.src[f.i]? = some v)
    (inside : s.writeAddress f < s.cfg.storageBytes) :
    Inv { s with
      storage := s.storage.write (s.writeAddress f) v
      portP := WriteFlight.seq { f with i := f.i + 1 } } := by
  obtain ⟨flight, more⟩ := inv.write_copy copying
  have ok := inv.active flight.active
  have unpublished := ok.not_mem_published (flight.slot_mem more)
  refine ⟨inv.cfg, fun _ => ⟨ok.two_le_cap, ok.cap_le_max, ok.region_fits, ok.write_lt, ok.read_lt⟩,
    fun h => absurd (flight.active.symm.trans h) nofun, inv.overflow, Memory.write_wf _ _ _ inv.storage_wf, ?_,
    .of_seq rfl (flight.store ok more byte _), ?_⟩
  · intro x hx
    obtain rfl | old := Memory.mem_write hx
    · exact inside
    · exact inv.storage_in_space x old
  · exact inv.read_seq.of_port rfl fun g r =>
      r.of_contents rfl rfl ((State.contents_store unpublished v _).symm ▸ List.prefix_refl _)

/-- Step W3 adds to the contents what the `WRITE` has stored. -/
theorem Inv.publishWrite {f : WriteFlight} (publishing : s.portP = .publish f) :
    Inv { s with
      writeIndex := adv f.wr f.k s.capacitySlots
      overflowCount := satAdd s.cfg.ovfW s.overflowCount f.drop
      portP := .idle } := by
  obtain ⟨flight, finished⟩ := inv.write_publish publishing
  have ok := inv.active flight.active
  have contents := flight.contents_publish ok finished (satAdd s.cfg.ovfW s.overflowCount f.drop) .idle
  have sum := ok.dataCount_add_spaceCount
  have fits := flight.fits
  have write_lt : adv f.wr f.k s.capacitySlots < s.capacitySlots :=
    adv_lt (flight.sampled ▸ ok.write_lt) (by omega)
  have saturates : satAdd s.cfg.ovfW s.overflowCount f.drop < 2 ^ s.cfg.ovfW := by
    have := Nat.two_pow_pos s.cfg.ovfW
    rw [satAdd]
    omega
  refine ⟨inv.cfg, fun _ => ⟨ok.two_le_cap, ok.cap_le_max, ok.region_fits, write_lt, ok.read_lt⟩,
    fun h => absurd (flight.active.symm.trans h) nofun, saturates, inv.storage_wf, inv.storage_in_space, .of_idle rfl,
    inv.read_seq.of_port rfl fun g r => r.of_contents rfl rfl ?_⟩
  rw [contents]
  exact List.prefix_append _ _

/-- Step R2 copies one of the published bytes. -/
theorem Inv.load {f : ReadFlight} (copying : s.portC = .copy f) :
    Inv { s with
      portC := ReadFlight.seq { f with i := f.i + 1, dst := f.dst ++ [s.byteAt (s.readAddress f)] } } := by
  obtain ⟨flight, more⟩ := inv.read_copy copying
  exact inv.setPortC flight.active (.of_seq rfl (flight.load (inv.active flight.active) more _))

/-- Step R3 takes away the bytes that the `READ` returns, which only makes space. -/
theorem Inv.publishRead {f : ReadFlight} (publishing : s.portC = .publish f) :
    Inv { s with readIndex := adv f.rd f.k s.capacitySlots, portC := .idle } := by
  obtain ⟨flight, -⟩ := inv.read_publish publishing
  have ok := inv.active flight.active
  have lt := ok.dataCount_lt
  have available := flight.available
  have read_lt : adv f.rd f.k s.capacitySlots < s.capacitySlots := adv_lt (flight.sampled ▸ ok.read_lt) (by omega)
  have space := flight.spaceCount_le_publish ok .idle
  exact ⟨inv.cfg, fun _ => ⟨ok.two_le_cap, ok.cap_le_max, ok.region_fits, ok.write_lt, read_lt⟩,
    fun h => absurd (flight.active.symm.trans h) nofun, inv.overflow, inv.storage_wf, inv.storage_in_space,
    inv.write_seq.of_port rfl fun g w => w.of_registers rfl rfl rfl rfl rfl space fun _ => rfl, .of_idle rfl⟩

end

/-! Commands and events. -/

theorem ExecEffect.inv {s t : State} {i : Instr} (effect : ExecEffect s i t) (idle : s.portIdle i.port = true)
    (wf : i.WellFormed s.cfg) (inv : Inv s) : Inv t := by
  obtain ⟨arg0_fits, -, payload_fits⟩ := wf
  cases effect with
  | answer => exact inv.of_controller (by simp)
  | bind peer_idle valid =>
    exact (inv.bindRegion (State.quiescent_of_portIdle idle peer_idle) valid).of_controller (by simp)
  | clear peer_idle active =>
    exact (inv.zeroIndices (State.quiescent_of_portIdle idle peer_idle) active).of_controller (by simp)
  | beginWrite active n_ne => exact inv.beginWrite active n_ne arg0_fits payload_fits
  | beginRead active n_ne data_ne => exact inv.beginRead active n_ne data_ne

theorem EventEffect.inv {s t : State} {e : Event} (effect : EventEffect s e t) (inv : Inv s) : Inv t := by
  cases effect with
  | observe => exact inv.of_controller (by simp)
  | reset => exact inv.hostReset
  | nothing => exact inv
  | command next effect =>
    have idle := State.portIdle_of_nextCommand next
    have wf := State.nextCommand_wellFormed next
    rw [← State.nextCommand_port next] at idle
    exact effect.inv (by simpa using idle) (by simpa using wf) (inv.of_controller (by simp))
  | store copying byte inside => exact inv.store copying byte inside
  | publishWrite publishing => exact (inv.publishWrite publishing).of_controller (by simp)
  | load copying => exact inv.load copying
  | publishRead publishing => exact (inv.publishRead publishing).of_controller (by simp)

theorem Inv.step {s t : State} (inv : Inv s) (h : step s = .next t) : Inv t := by
  obtain rfl | ⟨e, es, n, run⟩ := step_next h
  · exact inv
  · exact (runEvent_effect run).inv (inv.of_controller rfl)

/-- Settles O44: a step is an event or changes nothing, and each effect of an event keeps the invariant. -/
theorem everyStepKeepsInv : Obligations.EveryStepKeepsInv := by
  unfold Obligations.EveryStepKeepsInv
  intro s t inv h
  exact inv.step h

end Sys2Proof.Machine
end

section
/-! What the invariant gives: slots, widths, the one-slot gap, stale counts (00_scope.md R6, 10_state.md R10, R18, R23,
R24, 20_memory.md R31, R38, 41_query_ops.md R73). -/

namespace Sys2Proof.Machine

/-- Settles O43: in `COPY` there is a byte left, so the next slot is one of the producer's, or a published one. -/
theorem transfersKeepToTheirSlots : Obligations.TransfersKeepToTheirSlots := by
  unfold Obligations.TransfersKeepToTheirSlots
  intro s inv
  constructor
  · intro f copying
    obtain ⟨flight, more⟩ := inv.write_copy copying
    have mem := flight.slot_mem more
    exact ⟨mem, Nat.le_add_right _ _,
      Nat.add_lt_add_left ((inv.active flight.active).lt_of_mem_producerSlots mem) s.storageBase⟩
  · intro f copying
    obtain ⟨flight, more⟩ := inv.read_copy copying
    have mem := flight.slot_mem more
    exact ⟨mem, Nat.le_add_right _ _,
      Nat.add_lt_add_left ((inv.active flight.active).lt_of_mem_publishedSlots mem) s.storageBase⟩

/-! Widths. -/

/-- A capacity has a bit to spare, so that an index plus a capacity still has `W` bits (R5, R6). -/
theorem Inv.two_mul_cap_le {s : State} (inv : Inv s) (active : s.active = true) :
    2 * s.capacitySlots ≤ 2 ^ s.cfg.W := by
  obtain ⟨two_le_W, ⟨-, max_le⟩, -⟩ := inv.cfg
  have cap_le := (inv.active active).cap_le_max
  have half : 2 ^ s.cfg.W = 2 * 2 ^ (s.cfg.W - 1) := by
    rw [← Nat.pow_succ', Nat.succ_eq_add_one, Nat.sub_add_cancel (by omega)]
  omega

theorem Inv.registersFit {s : State} (inv : Inv s) : RegistersFit s := by
  cases active : s.active with
  | false =>
    have none := inv.inactive active
    have pos := Nat.two_pow_pos
    exact ⟨none.write_zero ▸ pos _, none.read_zero ▸ pos _, none.cap_zero ▸ pos _, none.base_zero ▸ pos _, inv.overflow⟩
  | true =>
    obtain ⟨two_le, -, fits, write_lt, read_lt⟩ := inv.active active
    obtain ⟨-, -, -, -, ⟨-, storage_le⟩, -⟩ := inv.cfg
    have bound := inv.two_mul_cap_le active
    exact ⟨by omega, by omega, by omega, by omega, inv.overflow⟩

/-- A `WRITE` in flight is sound in both busy phases. -/
theorem Inv.write_flight {s : State} (inv : Inv s) {f : WriteFlight} (h : s.portP = .copy f ∨ s.portP = .publish f) :
    WriteOk s f := by
  obtain copying | publishing := h
  · exact (inv.write_copy copying).1
  · exact (inv.write_publish publishing).1

/-- A `READ` in flight is sound in both busy phases. -/
theorem Inv.read_flight {s : State} (inv : Inv s) {f : ReadFlight} (h : s.portC = .copy f ∨ s.portC = .publish f) :
    ReadOk s f := by
  obtain copying | publishing := h
  · exact (inv.read_copy copying).1
  · exact (inv.read_publish publishing).1

/-- Settles O45: indices are below a capacity that has a bit to spare; amounts are bounded by an operand or a count. -/
theorem registersKeepTheirWidths : Obligations.RegistersKeepTheirWidths := by
  unfold Obligations.RegistersKeepTheirWidths
  intro s inv
  refine ⟨inv.registersFit, fun f busy => ?_, fun f busy => ?_, fun active k k_le => ?_⟩
  · obtain ⟨active, sampled, -, progress, -, -, operand, -⟩ := inv.write_flight busy
    have write_lt := (inv.active active).write_lt
    have bound := inv.two_mul_cap_le active
    omega
  · obtain ⟨active, sampled, -, available, progress, -⟩ := inv.read_flight busy
    have read_lt := (inv.active active).read_lt
    have data_lt := (inv.active active).dataCount_lt
    have bound := inv.two_mul_cap_le active
    omega
  · obtain ⟨-, -, -, write_lt, read_lt⟩ := inv.active active
    have bound := inv.two_mul_cap_le active
    omega

/-! Counts. -/

/-- A publish of port `P` raises the data count by what the `WRITE` stored. -/
theorem Inv.dataCount_writePublish {s t : State} (inv : Inv s) {f : WriteFlight} (publishing : s.portP = .publish f)
    (h : runEvent (.turn .P) s = .next t) : t.dataCount = s.dataCount + f.k := by
  obtain ⟨flight, -⟩ := inv.write_publish publishing
  rw [runEvent_turn_of_write_publish publishing, writePublish, flight.sampled] at h
  cases h
  rw [State.respond_dataCount]
  exact (inv.active flight.active).dataCount_publishWrite flight.fits _ _

/-- Settles O46: the data count grows by `k`, which the space it found bounds, and is 0 exactly where the indices are
equal. -/
theorem oneSlotGap : Obligations.OneSlotGap := by
  unfold Obligations.OneSlotGap
  intro s t f inv publishing h
  obtain ⟨flight, -⟩ := inv.write_publish publishing
  have ok := inv.active flight.active
  have count := inv.dataCount_writePublish publishing h
  have inv_t := (runEvent_effect h).inv inv
  have active_t : t.active = true := by
    rw [runEvent_turn_of_write_publish publishing] at h
    cases h
    exact flight.active
  refine ⟨count, State.dataCount_le (inv_t.active active_t).write_lt, fun equal => ?_⟩
  rw [State.dataCount_of_indices_eq equal] at count
  exact ⟨(diff_eq_zero_iff ok.read_lt).1 (by rw [← State.dataCount]; omega), by omega⟩

theorem State.dataCount_congr {s t : State} (h : t.statusOutputs = s.statusOutputs) : t.dataCount = s.dataCount := by
  have writeIndex : t.writeIndex = s.writeIndex := congrArg StatusOutputs.writeIndex h
  have readIndex : t.readIndex = s.readIndex := congrArg StatusOutputs.readIndex h
  have cap : t.capacitySlots = s.capacitySlots := congrArg StatusOutputs.capacitySlots h
  rw [State.dataCount, writeIndex, readIndex, cap, State.dataCount]

theorem State.spaceCount_congr {s t : State} (h : t.statusOutputs = s.statusOutputs) : t.spaceCount = s.spaceCount := by
  have cap : t.capacitySlots = s.capacitySlots := congrArg StatusOutputs.capacitySlots h
  rw [State.spaceCount, State.dataCount_congr h, cap, State.spaceCount]

/-- Settles O19: of the steps that zero nothing only the publishes change a count, and each publishes in its port's own
direction. -/
theorem countsStaleOnTheSafeSide : Obligations.CountsStaleOnTheSafeSide := by
  unfold Obligations.CountsStaleOnTheSafeSide
  intro s t inv
  constructor
  · intro stays h
    obtain ⟨outputs, -⟩ | ⟨f, -, publishing, -⟩ | ⟨f, turn, -⟩ := (runEvent_effect h).registers stays
    · exact (State.dataCount_congr outputs).ge
    · exact (inv.dataCount_writePublish publishing h).ge.trans' (Nat.le_add_right _ _)
    · cases turn
  · intro stays h
    obtain ⟨outputs, -⟩ | ⟨f, turn, -⟩ | ⟨f, -, publishing, rfl⟩ := (runEvent_effect h).registers stays
    · exact (State.spaceCount_congr outputs).ge
    · cases turn
    · obtain ⟨flight, -⟩ := inv.read_publish publishing
      rw [State.respond_spaceCount]
      exact flight.spaceCount_le_publish (inv.active flight.active) .idle

end Sys2Proof.Machine
end

section
/-! Responses keep their shape, and every event comes to its end (30_encoding.md R56, R61, 60_exceptions.md R98,
70_reset_and_hazards.md R120, R122). -/

namespace Sys2Proof.Machine

/-! The shape of the responses. -/

theorem Inv.dataCount_fits {s : State} (inv : Inv s) (active : s.active = true) : s.dataCount < 2 ^ s.cfg.W := by
  have lt := (inv.active active).dataCount_lt
  have bound := inv.two_mul_cap_le active
  omega

theorem Inv.spaceCount_fits {s : State} (inv : Inv s) (active : s.active = true) : s.spaceCount < 2 ^ s.cfg.W := by
  have two_le := (inv.active active).two_le_cap
  have sum := (inv.active active).dataCount_add_spaceCount
  have bound := inv.two_mul_cap_le active
  omega

/-- Whatever causes a response under the invariant, its shape is that of R56 and R61. -/
theorem ResponseCause.shape {s t : State} {p : Port} {r : Response} (cause : ResponseCause s t p r) (inv : Inv s) :
    ResponseFits s.cfg r ∧ BytesMatch r := by
  cases cause with
  | answer value =>
    obtain rfl | ⟨rfl, active, rfl | rfl⟩ := value
    · exact ⟨⟨Nat.two_pow_pos _, fun _ => ⟨rfl, rfl⟩⟩, .inl rfl⟩
    · exact ⟨⟨inv.dataCount_fits active, fun error => absurd rfl error⟩, .inl rfl⟩
    · exact ⟨⟨inv.spaceCount_fits active, fun error => absurd rfl error⟩, .inl rfl⟩
  | config => exact ⟨⟨Nat.two_pow_pos _, fun _ => ⟨rfl, rfl⟩⟩, .inl rfl⟩
  | publishWrite publishing =>
    obtain ⟨flight, -⟩ := inv.write_publish publishing
    exact ⟨⟨flight.operand.trans_le' (Nat.le_add_right _ _), fun error => absurd rfl error⟩, .inl rfl⟩
  | @publishRead f publishing =>
    obtain ⟨flight, finished⟩ := inv.read_publish publishing
    have length : f.dst.length = f.k := by
      rw [flight.dst_eq (inv.active flight.active), State.length_bytesFrom, finished]
    exact ⟨⟨(inv.dataCount_fits flight.active).trans_le' flight.available, fun error => absurd rfl error⟩, .inr length⟩

theorem EventEffect.responses_shape {s t : State} {e : Event} (effect : EventEffect s e t) (inv : Inv s)
    (before : ∀ p, ∀ r ∈ s.responses p, ResponseFits s.cfg r ∧ BytesMatch r) :
    ∀ p, ∀ r ∈ t.responses p, ResponseFits t.cfg r ∧ BytesMatch r := by
  intro p r mem
  rw [effect.cfg]
  obtain none_issued | ⟨r', issued, -, cause⟩ := effect.responses p
  · exact before p r (none_issued ▸ mem)
  · rw [issued, List.mem_append, List.mem_singleton] at mem
    obtain old | rfl := mem
    · exact before p r old
    · exact cause.shape inv

/-- Settles O51: a step issues at most one response, which has the shape that its cause gives it. -/
theorem responsesStayWellFormed : Obligations.ResponsesStayWellFormed := by
  unfold Obligations.ResponsesStayWellFormed
  intro s t inv h before
  obtain rfl | ⟨e, es, n, run⟩ := step_next h
  · exact before
  · refine (runEvent_effect run).responses_shape (inv.of_controller rfl) fun p r mem => before p r ?_
    cases p <;> exact mem

/-! No event stops. -/

/-- The meaning of a command answers a next state on an idle port, for `INIT` and `CLEAR` with the peer idle too. -/
theorem exists_exec_next {i : Instr} {s : State} (idle : s.portIdle i.port = true)
    (peer_idle : i.opcode = 0 ∨ i.opcode = 1 → s.portIdle i.port.peer = true) : ∃ t, exec i s = .next t := by
  by_cases illegal : i.legal = false
  · exact ⟨_, exec_illegal_of_idle illegal idle⟩
  have legal : i.legal = true := eq_true_of_ne_false illegal
  cases i with
  | init p cap base =>
    have peer_idle := peer_idle (.inl rfl)
    by_cases valid : validConfig s.cfg base cap = true
    · exact ⟨_, exec_init_of_valid idle peer_idle valid⟩
    · exact ⟨_, exec_init_of_invalid idle peer_idle valid⟩
  | clear p a b =>
    have peer_idle := peer_idle (.inr rfl)
    cases active : s.active with
    | false => exact ⟨_, exec_clear_of_inactive idle peer_idle a b active⟩
    | true => exact ⟨_, exec_clear_of_active idle peer_idle a b active⟩
  | dataCount p a b =>
    cases active : s.active with
    | false => exact ⟨_, exec_dataCount_of_inactive idle a b active⟩
    | true => exact ⟨_, exec_dataCount_of_active idle a b active⟩
  | spaceCount p a b =>
    cases active : s.active with
    | false => exact ⟨_, exec_spaceCount_of_inactive idle a b active⟩
    | true => exact ⟨_, exec_spaceCount_of_active idle a b active⟩
  | write p n b src =>
    obtain rfl : p = .P := of_decide_eq_true legal
    cases active : s.active with
    | false => exact ⟨_, exec_write_of_inactive idle n b src active⟩
    | true =>
      obtain rfl | n_ne := eq_or_ne n 0
      · exact ⟨_, exec_write_zero idle active b src⟩
      · exact ⟨_, exec_write_of_ne_zero idle active b src n_ne⟩
  | read p n b =>
    obtain rfl : p = .C := of_decide_eq_true legal
    cases active : s.active with
    | false => exact ⟨_, exec_read_of_inactive idle n b active⟩
    | true =>
      by_cases nothing : n = 0 ∨ s.dataCount = 0
      · exact ⟨_, exec_read_of_nothing idle active b nothing⟩
      · rw [not_or] at nothing
        exact ⟨_, exec_read_of_data idle active b nothing.1 nothing.2⟩
  | reserved6 p a b => cases legal
  | reserved7 p a b => cases legal

/-- Under the contract an `INIT` or a `CLEAR` is taken up with the peer idle (R113). -/
theorem State.peer_idle_of_contract {s : State} {p : Port} {i : Instr} (next : s.nextCommand p = some i)
    (kept : s.breaksContract (.turn p) = false) (op : i.opcode = 0 ∨ i.opcode = 1) : s.portIdle p.peer = true := by
  rw [State.breaksContract, next] at kept
  cases i with
  | init => simpa using kept
  | clear => simpa using kept
  | _ => simp [Instr.opcode] at op

section
variable {s : State} (inv : Inv s)
include inv

/-- Step W2 has a byte to store and an address inside the storage space. -/
theorem Inv.writeCopy_next {f : WriteFlight} (copying : s.portP = .copy f) :
    ∃ v, writeCopy f s = .next { s with
      storage := s.storage.write (s.writeAddress f) v
      portP := WriteFlight.seq { f with i := f.i + 1 } } := by
  obtain ⟨flight, more⟩ := inv.write_copy copying
  have ok := inv.active flight.active
  have in_payload : f.i < f.src.length := by
    have := flight.length
    omega
  exact ⟨_, writeCopy_of_byte (List.getElem?_eq_getElem in_payload)
    (ok.slot_lt (ok.lt_of_mem_producerSlots (flight.slot_mem more)))⟩

/-- Step R2 has an address inside the storage space. -/
theorem Inv.readCopy_next {f : ReadFlight} (copying : s.portC = .copy f) :
    readCopy f s = .next { s with
      portC := ReadFlight.seq { f with i := f.i + 1, dst := f.dst ++ [s.byteAt (s.readAddress f)] } } := by
  obtain ⟨flight, more⟩ := inv.read_copy copying
  have ok := inv.active flight.active
  exact readCopy_of_inside (ok.slot_lt (ok.lt_of_mem_publishedSlots (flight.slot_mem more)))

/-- The turn of a busy port never stops, whatever the other port does. -/
theorem Inv.exists_turn_of_busy {p : Port} (busy : s.portIdle p = false) : ∃ t, runEvent (.turn p) s = .next t := by
  cases p with
  | P =>
    cases phase : s.portP with
    | idle => exact absurd ((State.portIdle_P s).2 phase) (by simp [busy])
    | copy f =>
      obtain ⟨v, run⟩ := inv.writeCopy_next phase
      exact ⟨_, (runEvent_turn_of_write_copy phase).trans run⟩
    | publish f => exact ⟨_, runEvent_turn_of_write_publish phase⟩
  | C =>
    cases phase : s.portC with
    | idle => exact absurd ((State.portIdle_C s).2 phase) (by simp [busy])
    | copy f => exact ⟨_, (runEvent_turn_of_read_copy phase).trans (inv.readCopy_next phase)⟩
    | publish f => exact ⟨_, runEvent_turn_of_read_publish phase⟩

end

theorem issueNext_of_nil {s : State} {p : Port} (none_left : s.commands p = []) : issueNext p s = .next s := by
  simp only [issueNext, none_left]

/-- Settles O52: a busy port's step never stops; an idle port's command decodes and its meaning answers. -/
theorem nothingStopsUnderTheContract : Obligations.NothingStopsUnderTheContract := by
  unfold Obligations.NothingStopsUnderTheContract
  intro s e inv kept decodes
  cases e with
  | observe agent => exact ⟨_, rfl⟩
  | reset => exact ⟨_, rfl⟩
  | turn p =>
    cases idle : s.portIdle p with
    | false => exact inv.exists_turn_of_busy idle
    | true =>
      cases cmds : s.commands p with
      | nil => exact ⟨s, (runEvent_turn_of_idle idle).trans (issueNext_of_nil cmds)⟩
      | cons cmd rest =>
        obtain ⟨i, ok⟩ := decodes p cmd rest rfl idle cmds
        have next := State.nextCommand_eq_some_iff.2 ⟨idle, cmd, rest, cmds, ok⟩
        have port := State.nextCommand_port next
        rw [runEvent_turn_of_nextCommand next]
        refine exists_exec_next (by simpa [port] using idle) fun op => ?_
        simpa [port] using State.peer_idle_of_contract next kept op

/-! How many steps a transfer still takes. -/

theorem State.remaining_P_of_idle {s : State} (h : s.portP = .idle) : s.remaining .P = 0 := by
  rw [State.remaining, h]

theorem State.remaining_C_of_idle {s : State} (h : s.portC = .idle) : s.remaining .C = 0 := by
  rw [State.remaining, h]

theorem State.remaining_P_of_seq {s : State} {f : WriteFlight} (port : s.portP = f.seq) :
    s.remaining .P = f.k - f.i + 1 := by
  by_cases finished : f.i = f.k
  · rw [State.remaining, port, WriteFlight.seq_of_eq finished, finished, Nat.sub_self]
  · rw [State.remaining, port, WriteFlight.seq_of_ne finished]

theorem State.remaining_C_of_seq {s : State} {f : ReadFlight} (port : s.portC = f.seq) :
    s.remaining .C = f.k - f.i + 1 := by
  by_cases finished : f.i = f.k
  · rw [State.remaining, port, ReadFlight.seq_of_eq finished, finished, Nat.sub_self]
  · rw [State.remaining, port, ReadFlight.seq_of_ne finished]

/-- What R120 and R122 say of a busy port's next turn. -/
def State.OneStepNearer (s : State) (p : Port) : Prop :=
  s.remaining p ≤ s.capacitySlots ∧
    ∃ t, runEvent (.turn p) s = .next t ∧ t.remaining p + 1 = s.remaining p ∧
      (t.remaining p = 0 → ∃ r, t.responses p = s.responses p ++ [r])

section
variable {s : State} (inv : Inv s)
include inv

theorem Inv.write_one_step_nearer (pending : 0 < s.remaining .P) : s.OneStepNearer .P := by
  cases phase : s.portP with
  | idle => exact absurd (State.remaining_P_of_idle phase) pending.ne'
  | copy f =>
    obtain ⟨flight, more⟩ := inv.write_copy phase
    obtain ⟨v, run⟩ := inv.writeCopy_next phase
    have two_le := (inv.active flight.active).two_le_cap
    have sum := (inv.active flight.active).dataCount_add_spaceCount
    have fits := flight.fits
    have before : s.remaining .P = f.k - f.i + 1 := by rw [State.remaining, phase]
    obtain ⟨t, turn, port⟩ : ∃ t, runEvent (.turn .P) s = .next t ∧ t.portP = WriteFlight.seq { f with i := f.i + 1 } :=
      ⟨_, (runEvent_turn_of_write_copy phase).trans run, rfl⟩
    have after : t.remaining .P = f.k - (f.i + 1) + 1 := State.remaining_P_of_seq port
    exact ⟨by omega, t, turn, by omega, fun done => by omega⟩
  | publish f =>
    obtain ⟨flight, -⟩ := inv.write_publish phase
    have two_le := (inv.active flight.active).two_le_cap
    have before : s.remaining .P = 1 := by rw [State.remaining, phase]
    rw [State.OneStepNearer, before]
    exact ⟨by omega, _, runEvent_turn_of_write_publish phase, rfl, fun _ => ⟨_, rfl⟩⟩

theorem Inv.read_one_step_nearer (pending : 0 < s.remaining .C) : s.OneStepNearer .C := by
  cases phase : s.portC with
  | idle => exact absurd (State.remaining_C_of_idle phase) pending.ne'
  | copy f =>
    obtain ⟨flight, more⟩ := inv.read_copy phase
    have data_lt := (inv.active flight.active).dataCount_lt
    have available := flight.available
    have before : s.remaining .C = f.k - f.i + 1 := by rw [State.remaining, phase]
    obtain ⟨t, turn, port⟩ : ∃ t, runEvent (.turn .C) s = .next t ∧ t.portC = ReadFlight.seq
        { f with i := f.i + 1, dst := f.dst ++ [s.byteAt (s.readAddress f)] } :=
      ⟨_, (runEvent_turn_of_read_copy phase).trans (inv.readCopy_next phase), rfl⟩
    have after : t.remaining .C = f.k - (f.i + 1) + 1 := State.remaining_C_of_seq port
    exact ⟨by omega, t, turn, by omega, fun done => by omega⟩
  | publish f =>
    obtain ⟨flight, -⟩ := inv.read_publish phase
    have two_le := (inv.active flight.active).two_le_cap
    have before : s.remaining .C = 1 := by rw [State.remaining, phase]
    rw [State.OneStepNearer, before]
    exact ⟨by omega, _, runEvent_turn_of_read_publish phase, rfl, fun _ => ⟨_, rfl⟩⟩

end

theorem State.remaining_P_congr {s t : State} (h : t.portP = s.portP) : t.remaining .P = s.remaining .P := by
  rw [State.remaining, h, State.remaining]

theorem State.remaining_C_congr {s t : State} (h : t.portC = s.portC) : t.remaining .C = s.remaining .C := by
  rw [State.remaining, h, State.remaining]

/-- Settles O53: a turn of the port in `COPY` moves one byte, one in `PUBLISH` responds, and other events leave the
port's sequencer. -/
theorem transfersFinishInBoundedSteps : Obligations.TransfersFinishInBoundedSteps := by
  unfold Obligations.TransfersFinishInBoundedSteps
  intro s p inv pending
  cases p with
  | P =>
    obtain ⟨bound, nearer⟩ := inv.write_one_step_nearer pending
    exact ⟨bound, nearer, fun e t turn reset h => State.remaining_P_congr ((runEvent_effect h).portP turn reset)⟩
  | C =>
    obtain ⟨bound, nearer⟩ := inv.read_one_step_nearer pending
    exact ⟨bound, nearer, fun e t turn reset h => State.remaining_C_congr ((runEvent_effect h).portC turn reset)⟩

end Sys2Proof.Machine
end

section
/-! First in, first out (42_transfer_ops.md R91). -/

namespace Sys2Proof.Machine

/-! What an event publishes, by the phase of its port. -/

theorem State.storedBy_of_idle {s : State} {p : Port} (idle : s.portIdle p = true) : s.storedBy (.turn p) = [] := by
  cases p with
  | P => rw [State.storedBy, (State.portIdle_P s).1 idle]
  | C => rfl

theorem State.returnedBy_of_idle {s : State} {p : Port} (idle : s.portIdle p = true) :
    s.returnedBy (.turn p) = [] := by
  cases p with
  | P => rfl
  | C => rw [State.returnedBy, (State.portIdle_C s).1 idle]

theorem State.storedBy_of_copy {s : State} {f : WriteFlight} (h : s.portP = .copy f) : s.storedBy (.turn .P) = [] := by
  rw [State.storedBy, h]

theorem State.returnedBy_of_copy {s : State} {f : ReadFlight} (h : s.portC = .copy f) :
    s.returnedBy (.turn .C) = [] := by
  rw [State.returnedBy, h]

theorem State.storedBy_of_publish {s : State} {f : WriteFlight} (h : s.portP = .publish f) :
    s.storedBy (.turn .P) = f.src.take f.k := by
  rw [State.storedBy, h]

theorem State.returnedBy_of_publish {s : State} {f : ReadFlight} (h : s.portC = .publish f) :
    s.returnedBy (.turn .C) = f.dst := by
  rw [State.returnedBy, h]

/-! The contents. -/

@[simp] theorem State.respond_contents (s : State) (p : Port) (st : Status) (v : Nat) (bs : List Byte) :
    (s.respond p st v bs).contents = s.contents := by cases p <;> rfl

@[simp] theorem State.withCommands_contents (s : State) (p : Port) (cs : List Command) :
    (s.withCommands p cs).contents = s.contents := by cases p <;> rfl

/-- A command that does not zero the buffer leaves its contents. -/
theorem ExecEffect.contents {s t : State} {i : Instr} (effect : ExecEffect s i t)
    (stays : s.zeroedByCommand i = false) : t.contents = s.contents := by
  cases effect with
  | answer => simp
  | bind _ valid => exact absurd (valid.symm.trans stays) nofun
  | clear _ active => exact absurd (active.symm.trans stays) nofun
  | beginWrite => rfl
  | beginRead => rfl

/-- The queue law of one event: what it returns comes from the front of the contents and what it stores goes to their
end. -/
theorem EventEffect.fifo {s t : State} {e : Event} (effect : EventEffect s e t) (inv : Inv s)
    (stays : s.zeroedBy e = false) : s.returnedBy e ++ t.contents = s.contents ++ s.storedBy e := by
  cases effect with
  | observe => exact (List.append_nil _).symm
  | reset => cases stays
  | nothing idle =>
    rw [State.returnedBy_of_idle idle, State.storedBy_of_idle idle, List.append_nil, List.nil_append]
  | command next effect =>
    have idle := State.portIdle_of_nextCommand next
    rw [State.zeroedBy_turn next] at stays
    have contents := effect.contents (by simpa using stays)
    rw [State.returnedBy_of_idle idle, State.storedBy_of_idle idle, List.append_nil, List.nil_append, contents,
      State.withCommands_contents]
  | store copying =>
    obtain ⟨flight, more⟩ := inv.write_copy copying
    have unpublished := (inv.active flight.active).not_mem_published (flight.slot_mem more)
    rw [State.storedBy_of_copy copying, List.append_nil]
    exact State.contents_store unpublished _ _
  | publishWrite publishing =>
    obtain ⟨flight, finished⟩ := inv.write_publish publishing
    rw [State.storedBy_of_publish publishing, State.respond_contents]
    exact flight.contents_publish (inv.active flight.active) finished _ _
  | load copying =>
    rw [State.returnedBy_of_copy copying]
    exact (List.append_nil _).symm
  | publishRead publishing =>
    obtain ⟨flight, finished⟩ := inv.read_publish publishing
    rw [State.returnedBy_of_publish publishing, State.respond_contents]
    exact (flight.contents_publish (inv.active flight.active) finished _).trans (List.append_nil _).symm

theorem EventEffect.contents_of_zeroed {s t : State} {e : Event} (effect : EventEffect s e t)
    (zeroed : s.zeroedBy e = true) : t.contents = [] := by
  obtain ⟨write_zero, read_zero, -⟩ := effect.zeros zeroed
  exact State.contents_of_indices_eq (write_zero.trans read_zero.symm)

/-- Settles O54: an event that zeroes the indices empties the buffer; every other one obeys the queue law. -/
theorem fifoStep : Obligations.FifoStep := by
  unfold Obligations.FifoStep
  intro s t e inv h
  have effect := runEvent_effect h
  exact ⟨effect.contents_of_zeroed, effect.fifo inv⟩

/-! Runs. -/

/-- The stream of a state: what was stored is what was returned and then the contents. -/
def Stream.Agrees (h : Stream) (s : State) : Prop := h.stored = h.returned ++ s.contents

theorem Stream.Agrees.after {h : Stream} {s t : State} {e : Event} (agrees : h.Agrees s) (inv : Inv s)
    (effect : EventEffect s e t) : (h.after s e).Agrees t := by
  rw [Stream.Agrees, Stream.after]
  cases zeroed : s.zeroedBy e with
  | true => simp [effect.contents_of_zeroed zeroed]
  | false =>
    rw [Stream.Agrees] at agrees
    calc h.stored ++ s.storedBy e
        = h.returned ++ (s.contents ++ s.storedBy e) := by rw [agrees, List.append_assoc]
      _ = h.returned ++ s.returnedBy e ++ t.contents := by rw [← effect.fifo inv zeroed, List.append_assoc]

theorem runStream_agrees {n : Nat} {s t : State} {g h : Stream} (inv : Inv s) (agrees : g.Agrees s)
    (run : runStream n s g = some (t, h)) : h.Agrees t := by
  induction n generalizing s g with
  | zero =>
    cases run
    exact agrees
  | succ n ih =>
    rw [runStream] at run
    split at run
    · exact ih inv agrees run
    · next e u chosen =>
      split at run
      · next v event =>
        have effect := runEvent_effect event
        obtain ⟨inv_u, agrees_u⟩ : Inv u ∧ g.Agrees u := by
          obtain ⟨rest, -, rfl⟩ | ⟨-, p, -, -, rfl | rfl⟩ := State.nextEvent_some chosen
          · exact ⟨inv.of_controller rfl, agrees⟩
          · exact ⟨inv, agrees⟩
          · exact ⟨inv.of_controller rfl, agrees⟩
        exact ih (effect.inv inv_u) (agrees_u.after inv_u effect) run
      · cases run
      · cases run

/-- Settles O55: from an empty buffer and an empty stream on, every event keeps the two in agreement. -/
theorem firstInFirstOut : Obligations.FirstInFirstOut := by
  unfold Obligations.FirstInFirstOut
  intro n s t h inv empty run
  have agrees : h.Agrees t := runStream_agrees inv (by rw [Stream.Agrees, empty]; rfl) run
  exact ⟨⟨t.contents, agrees.symm⟩, agrees⟩

end Sys2Proof.Machine
end

section
/-! Transfers whose steps no other event separates (42_transfer_ops.md R91, R92). -/

namespace Sys2Proof.Machine

/-! Runs of a schedule. -/

theorem run_succ {s t : State} (first : step s = .next t) (n : Nat) : core.run (n + 1) s = core.run n t := by
  have first : core.step s = .next t := first
  simp only [Host.Core.run, first]

/-- A run goes on from where its first part ends. -/
theorem run_add {m n : Nat} {s t : State} (h : core.run m s = .next t) : core.run (m + n) s = core.run n t := by
  induction m generalizing s with
  | zero =>
    cases h
    rw [Nat.zero_add]
  | succ m ih =>
    rw [Nat.succ_add]
    simp only [Host.Core.run] at h ⊢
    split at h
    · exact ih h
    · cases h
    · cases h

theorem run_one {s t : State} {e : Event} {es : List Event} (h : s.schedule = e :: es)
    (event : runEvent e { s with schedule := es } = .next t) : core.run 1 s = .next t :=
  run_succ ((step_of_schedule h).trans event) 0

theorem turns_succ_append (p : Port) (n : Nat) (es : List Event) :
    turns p (n + 1) ++ es = .turn p :: (turns p n ++ es) := rfl

theorem turns_append_cons (p : Port) (n : Nat) (es : List Event) :
    turns p n ++ .turn p :: es = turns p (n + 1) ++ es := by
  rw [turns, turns, List.replicate_succ', List.append_assoc, List.singleton_append]

/-! The copy steps of a `WRITE`, one after the other. -/

theorem storeBytes_append_singleton (base start cap : Nat) (bs : List Byte) (v : Byte) (m : Memory) :
    storeBytes base start cap (bs ++ [v]) m =
      (storeBytes base start cap bs m).write (base + adv start bs.length cap) v := by
  rw [storeBytes, List.zipIdx_append, List.foldl_append]
  simp [storeBytes]

/-- The state with `i` bytes of the `WRITE` `f` stored, and the schedule `es` still to run. -/
def State.afterStores (s : State) (f : WriteFlight) (i : Nat) (es : List Event) : State :=
  { s with
    storage := storeBytes s.storageBase f.wr s.capacitySlots (f.src.take i) s.storage
    portP := WriteFlight.seq { f with i := i }
    schedule := es }

theorem run_stores {s : State} {f : WriteFlight}
    (inside : ∀ j < f.k, s.slot (adv f.wr j s.capacitySlots) < s.cfg.storageBytes) (length : f.k ≤ f.src.length)
    {i : Nat} (i_le : i ≤ f.k) (es : List Event) :
    core.run i (s.afterStores f 0 (turns .P i ++ es)) = .next (s.afterStores f i es) := by
  induction i generalizing es with
  | zero => rfl
  | succ i ih =>
    have in_payload : i < f.src.length := by omega
    have copying : (s.afterStores f i es).portP = .copy { f with i := i } :=
      WriteFlight.seq_of_ne (f := { f with i := i }) (Nat.ne_of_lt i_le)
    have stored : storeBytes s.storageBase f.wr s.capacitySlots (f.src.take (i + 1)) s.storage =
        (storeBytes s.storageBase f.wr s.capacitySlots (f.src.take i) s.storage).write
          (s.slot (adv f.wr i s.capacitySlots)) f.src[i] := by
      rw [List.take_succ_eq_append_getElem in_payload, storeBytes_append_singleton,
        List.length_take_of_le in_payload.le, State.slot]
    have step := writeCopy_of_byte (s := s.afterStores f i es) (f := { f with i := i })
      (List.getElem?_eq_getElem in_payload) (inside i i_le)
    rw [← turns_append_cons, run_add (ih (Nat.le_of_lt i_le) (.turn .P :: es))]
    refine run_one (e := .turn .P) (es := es) rfl (((runEvent_turn_of_write_copy copying).trans step).trans ?_)
    simp only [State.afterStores, stored]
    rfl

/-! The whole of a `WRITE`. -/

/-- The state after an uninterleaved `WRITE` of `n` bytes `src` that stores `k` of them (R92). -/
def State.afterWrite (s : State) (n k : Nat) (src : List Byte) (rest : List Command) (es : List Event) : State :=
  { s with
    storage := storeBytes s.storageBase s.writeIndex s.capacitySlots (src.take k) s.storage
    writeIndex := adv s.writeIndex k s.capacitySlots
    overflowCount := min (s.overflowCount + (n - k)) (2 ^ s.cfg.ovfW - 1)
    schedule := es
    pCommands := rest
    pResponses := s.pResponses ++ [⟨.ok, k, []⟩] }

/-- The turn that takes a `WRITE` up leaves it with nothing stored yet. -/
theorem turn_begins_write {s : State} {cmd : Command} {rest : List Command} {n b : Nat} {src : List Byte}
    (active : s.active = true) (idle : s.portP = .idle) (cmds : s.pCommands = cmd :: rest)
    (ok : decode s.cfg .P cmd = .ok (.write .P n b src)) (n_ne : n ≠ 0) :
    runEvent (.turn .P) s =
      .next ({ s with pCommands := rest }.afterStores (s.sampleWrite n src) 0 s.schedule) := by
  have idle := (State.portIdle_P s).2 idle
  rw [runEvent_turn_of_idle idle, issueNext_of_decodes (p := .P) cmds ok,
    exec_write_of_ne_zero (by simpa using idle) (by simpa using active) b src n_ne, State.beginWrite_eq]
  rfl

/-- The turn after the last byte is stored is the publish step. -/
theorem turn_publishes_write {s : State} {f : WriteFlight} {es : List Event} :
    runEvent (.turn .P) (s.afterStores f f.k es) =
      .next (State.respond { s.afterStores f f.k es with
        writeIndex := adv f.wr f.k s.capacitySlots
        overflowCount := satAdd s.cfg.ovfW s.overflowCount f.drop
        portP := .idle } .P .ok f.k []) :=
  runEvent_turn_of_write_publish (f := { f with i := f.k }) (WriteFlight.seq_of_eq rfl)

theorem run_write {s : State} {es : List Event} {cmd : Command} {rest : List Command} {n b : Nat} {src : List Byte}
    {k : Nat} (inv : Inv s) (active : s.active = true) (idle : s.portP = .idle) (cmds : s.pCommands = cmd :: rest)
    (ok : decode s.cfg .P cmd = .ok (.write .P n b src)) (n_ne : n ≠ 0) (k_eq : k = min n s.spaceCount)
    (scheduled : s.schedule = turns .P (k + 2) ++ es) :
    core.run (k + 2) s = .next (s.afterWrite n k src rest es) := by
  subst k_eq
  have descriptor := inv.active active
  have sum := descriptor.dataCount_add_spaceCount
  have inside (j : Nat) (hj : j < min n s.spaceCount) :
      s.slot (adv s.writeIndex j s.capacitySlots) < s.cfg.storageBytes :=
    descriptor.slot_lt (adv_lt descriptor.write_lt (by omega))
  have length : src.length = n := (decode_wellFormed ok).2.2
  have begins := turn_begins_write (s := { s with schedule := turns .P (min n s.spaceCount) ++ .turn .P :: es })
    active idle cmds ok n_ne
  have stores := run_stores (s := { s with pCommands := rest }) (f := s.sampleWrite n src) inside
    ((Nat.min_le_left n s.spaceCount).trans length.ge) le_rfl (.turn .P :: es)
  have publishes := turn_publishes_write (s := { s with pCommands := rest }) (f := s.sampleWrite n src) (es := es)
  rw [turns_succ_append, ← turns_append_cons] at scheduled
  calc core.run (min n s.spaceCount + 2) s
      = core.run (min n s.spaceCount + 1) _ := run_succ ((step_of_schedule scheduled).trans begins) _
    _ = core.run 1 _ := run_add stores
    _ = .next _ := run_one rfl publishes
    _ = .next (s.afterWrite n (min n s.spaceCount) src rest es) := by
      rw [State.afterWrite, ← idle]
      rfl

/-- Settles O56: the turns are the sample, `k` copy steps and the publish, which end in the state of R92. -/
theorem writeUninterleaved : Obligations.WriteUninterleaved := by
  unfold Obligations.WriteUninterleaved
  intro s es cmd rest n b src k inv active idle cmds ok n_pos k_eq scheduled
  exact ⟨_, run_write inv active idle cmds ok n_pos.ne' k_eq scheduled, rfl, fun _ => rfl⟩

/-! The copy steps of a `READ`, one after the other. -/

/-- The state with `i` bytes of the `READ` `f` copied out, and the schedule `es` still to run. -/
def State.afterLoads (s : State) (f : ReadFlight) (i : Nat) (es : List Event) : State :=
  { s with
    portC := ReadFlight.seq { f with i := i, dst := s.bytesFrom f.rd i }
    schedule := es }

theorem run_loads {s : State} {f : ReadFlight}
    (inside : ∀ j < f.k, s.slot (adv f.rd j s.capacitySlots) < s.cfg.storageBytes) {i : Nat} (i_le : i ≤ f.k)
    (es : List Event) :
    core.run i (s.afterLoads f 0 (turns .C i ++ es)) = .next (s.afterLoads f i es) := by
  induction i generalizing es with
  | zero => rfl
  | succ i ih =>
    have copying : (s.afterLoads f i es).portC = .copy { f with i := i, dst := s.bytesFrom f.rd i } :=
      ReadFlight.seq_of_ne (f := { f with i := i, dst := s.bytesFrom f.rd i }) (Nat.ne_of_lt i_le)
    have step := readCopy_of_inside (s := s.afterLoads f i es) (f := { f with i := i, dst := s.bytesFrom f.rd i })
      (inside i i_le)
    rw [← turns_append_cons, run_add (ih (Nat.le_of_lt i_le) (.turn .C :: es))]
    refine run_one (e := .turn .C) (es := es) rfl (((runEvent_turn_of_read_copy copying).trans step).trans ?_)
    simp only [State.afterLoads, State.bytesFrom_succ]
    rfl

/-! The whole of a `READ`. -/

/-- The state after an uninterleaved `READ` that returns `k` bytes (R92). -/
def State.afterRead (s : State) (k : Nat) (rest : List Command) (es : List Event) : State :=
  { s with
    readIndex := adv s.readIndex k s.capacitySlots
    schedule := es
    cCommands := rest
    cResponses := s.cResponses ++ [⟨.ok, k, s.bytesFrom s.readIndex k⟩] }

/-- The turn that takes a `READ` up leaves it with nothing copied yet. -/
theorem turn_begins_read {s : State} {cmd : Command} {rest : List Command} {n b : Nat} (active : s.active = true)
    (idle : s.portC = .idle) (cmds : s.cCommands = cmd :: rest) (ok : decode s.cfg .C cmd = .ok (.read .C n b))
    (n_ne : n ≠ 0) (data_ne : s.dataCount ≠ 0) :
    runEvent (.turn .C) s = .next ({ s with cCommands := rest }.afterLoads (s.sampleRead n) 0 s.schedule) := by
  have idle := (State.portIdle_C s).2 idle
  rw [runEvent_turn_of_idle idle, issueNext_of_decodes (p := .C) cmds ok,
    exec_read_of_data (by simpa using idle) (by simpa using active) b n_ne (by simpa using data_ne),
    State.beginRead_eq n_ne (by simpa using data_ne)]
  rfl

/-- The turn after the last byte is copied is the publish step. -/
theorem turn_publishes_read {s : State} {f : ReadFlight} {es : List Event} :
    runEvent (.turn .C) (s.afterLoads f f.k es) =
      .next (State.respond { s.afterLoads f f.k es with
        readIndex := adv f.rd f.k s.capacitySlots
        portC := .idle } .C .ok f.k (s.bytesFrom f.rd f.k)) :=
  runEvent_turn_of_read_publish (f := { f with i := f.k, dst := s.bytesFrom f.rd f.k }) (ReadFlight.seq_of_eq rfl)

theorem run_read {s : State} {es : List Event} {cmd : Command} {rest : List Command} {n b k : Nat} (inv : Inv s)
    (active : s.active = true) (idle : s.portC = .idle) (cmds : s.cCommands = cmd :: rest)
    (ok : decode s.cfg .C cmd = .ok (.read .C n b)) (k_eq : k = min n s.dataCount) (k_pos : 0 < k)
    (scheduled : s.schedule = turns .C (k + 2) ++ es) :
    core.run (k + 2) s = .next (s.afterRead k rest es) := by
  subst k_eq
  have descriptor := inv.active active
  have data_lt := descriptor.dataCount_lt
  have inside (j : Nat) (hj : j < min n s.dataCount) :
      s.slot (adv s.readIndex j s.capacitySlots) < s.cfg.storageBytes :=
    descriptor.slot_lt (adv_lt descriptor.read_lt (by omega))
  have begins := turn_begins_read (s := { s with schedule := turns .C (min n s.dataCount) ++ .turn .C :: es })
    active idle cmds ok (by omega) (by show s.dataCount ≠ 0; omega)
  have loads := run_loads (s := { s with cCommands := rest }) (f := s.sampleRead n) inside le_rfl (.turn .C :: es)
  have publishes := turn_publishes_read (s := { s with cCommands := rest }) (f := s.sampleRead n) (es := es)
  rw [turns_succ_append, ← turns_append_cons] at scheduled
  calc core.run (min n s.dataCount + 2) s
      = core.run (min n s.dataCount + 1) _ := run_succ ((step_of_schedule scheduled).trans begins) _
    _ = core.run 1 _ := run_add loads
    _ = .next _ := run_one rfl publishes
    _ = .next (s.afterRead (min n s.dataCount) rest es) := by
      rw [State.afterRead, ← idle]
      rfl

/-- Settles O57: the turns are the sample, `k` copy steps and the publish, which end in the state of R92. -/
theorem readUninterleaved : Obligations.ReadUninterleaved := by
  unfold Obligations.ReadUninterleaved
  intro s es cmd rest n b k inv active idle cmds ok _ k_eq k_pos scheduled
  rw [run_read inv active idle cmds ok k_eq k_pos scheduled, State.afterRead, State.bytesFrom, slotsFrom, List.map_map]
  rfl

/-! Reading back what was written. -/

theorem Inv.run {n : Nat} {s t : State} (inv : Inv s) (h : core.run n s = .next t) : Inv t := by
  induction n generalizing s with
  | zero =>
    cases h
    exact inv
  | succ n ih =>
    simp only [Host.Core.run] at h
    split at h
    · next u first => exact ih (inv.step first) h
    · cases h
    · cases h

/-- The bytes of the slots that a `WRITE` has stored to are those it stored, in order, wherever the copy wraps. -/
theorem map_byteAt_storeBytes {off cap : Nat} (hoff : off < cap) (base : Nat) (m : Memory) (bs : List Byte)
    (h : bs.length ≤ cap) :
    (slotsFrom off bs.length cap).map (fun i => (storeBytes base off cap bs m).byteAt (base + i)) = bs := by
  induction bs using List.reverseRecOn with
  | nil => rfl
  | append_singleton bs v ih =>
    rw [List.length_append, List.length_singleton] at h ⊢
    simp only [storeBytes_append_singleton, slotsFrom_succ, List.map_append, List.map_singleton, Memory.byteAt_write,
      if_true]
    refine congrArg (· ++ [v]) (Eq.trans (List.map_congr_left fun i hi => ?_) (ih (by omega)))
    obtain ⟨j, hj, rfl⟩ := mem_slotsFrom.1 hi
    have other : adv off j cap ≠ adv off bs.length cap := fun same =>
      hj.ne (adv_inj hoff (by omega) (by omega) same)
    exact if_neg (by omega)

theorem State.afterWrite_bytesFrom {s : State} (ok : ActiveOk s) {src : List Byte} (h : src.length ≤ s.capacitySlots)
    (n : Nat) (rest : List Command) (es : List Event) :
    (s.afterWrite n src.length src rest es).bytesFrom s.writeIndex src.length = src := by
  have stored := map_byteAt_storeBytes ok.write_lt s.storageBase s.storage src h
  rw [State.bytesFrom, State.afterWrite, List.take_length]
  exact stored

/-- Settles O58: the `WRITE` finds space for all of its bytes, and the `READ` then finds just these. -/
theorem writeThenReadReturnsTheBytes : Obligations.WriteThenReadReturnsTheBytes := by
  unfold Obligations.WriteThenReadReturnsTheBytes
  intro s cw cr a b src inv active quiescent empty write_cmd write_ok read_cmd read_ok pos fits scheduled
  have descriptor := inv.active active
  have two_le := descriptor.two_le_cap
  obtain ⟨idle_P, idle_C⟩ := State.quiescent_iff.1 quiescent
  have space : src.length = min src.length s.spaceCount := by
    rw [State.spaceCount, State.dataCount_of_indices_eq empty]
    omega
  have write := run_write inv active idle_P write_cmd write_ok pos.ne' space scheduled
  have data : (s.afterWrite src.length src.length src [] (turns .C (src.length + 2))).dataCount = src.length := by
    show diff (adv s.writeIndex src.length s.capacitySlots) s.readIndex s.capacitySlots = src.length
    rw [← empty]
    exact diff_adv descriptor.write_lt (by omega)
  have read := run_read (es := []) (inv.run write) active idle_C read_cmd read_ok (k := src.length)
    (by rw [data, min_self]) pos (List.append_nil _).symm
  have returned : (s.afterWrite src.length src.length src [] (turns .C (src.length + 2))).bytesFrom s.readIndex
      src.length = src := by
    rw [← empty]
    exact State.afterWrite_bytesFrom descriptor (by omega) _ _ _
  refine ⟨_, (run_add write).trans read, ?_, rfl, ?_, ?_, State.contents_of_indices_eq ?_⟩
  · exact Bool.and_eq_true_iff.2 ⟨Bool.and_eq_true_iff.2 ⟨quiescent, rfl⟩, rfl⟩
  · exact congrArg (fun bytes => s.cResponses ++ [⟨.ok, src.length, bytes⟩]) returned
  · show min (s.overflowCount + (src.length - src.length)) (2 ^ s.cfg.ovfW - 1) = s.overflowCount
    have overflow := inv.overflow
    omega
  · exact congrArg (fun index => adv index src.length s.capacitySlots) empty

end Sys2Proof.Machine
end
